-- ==== Sys2Proof/Config.lean ====
section
/-! DEFINITION. The parameters the source fixes, each a named field (00_scope.md R8, R10), and the ones it
leaves open, each an opaque constant (00_scope.md R9; notes/assumptions/11.md). The widths are reducible, because the
types of Sys2Proof/Word.lean and of the state are made from them (notes/assumptions/25.md). -/

namespace Sys2Proof

/-- The open parameter `BOOT_SET_STATE`: does the boot execute `REGSET 0` once before the loop
(70_reset_and_hazards.md R231). -/
inductive BootSetState where
  | none
  | off
  deriving DecidableEq, Repr, Inhabited

namespace Config

/-- `TIME_W`: bits of a timestamp; the width of `Stamp`. -/
abbrev timeW : Nat := 32
/-- `TICK_MS`: milliseconds of real time per increment of `millis`. -/
def tickMs : Nat := 1
/-- `PRESS_THRESHOLD_MS`. -/
def pressThresholdMs : BitVec timeW := BitVec.ofNat timeW 10
/-- `HOLD_THRESHOLD_MS`. -/
def holdThresholdMs : BitVec timeW := BitVec.ofNat timeW 2000
/-- `PULSE_DURATION_MS`. -/
def pulseDurationMs : BitVec timeW := BitVec.ofNat timeW 30
/-- `LED_COUNT`: LEDs in the chain. -/
def ledCount : Nat := 3
/-- `BYTES_PER_LED`. -/
def bytesPerLed : Nat := 3
/-- `COLOR_W`: bits of a LedColor; the width of `LedColor`. -/
abbrev colorW : Nat := 24
/-- `N_EVENTS`: event kinds; the width of `FlagSet`. -/
abbrev nEvents : Nat := 4
/-- `T0H_NS`: high time of a 0 bit. -/
def t0hNs : Nat := 300
/-- `T0L_NS`: low time of a 0 bit. -/
def t0lNs : Nat := 900
/-- `T1H_NS`: high time of a 1 bit. -/
def t1hNs : Nat := 900
/-- `T1L_NS`: low time of a 1 bit. -/
def t1lNs : Nat := 300
/-- `T_LATCH_NS`: minimum low time after a frame. -/
def tLatchNs : Nat := 50000
/-- The classifier's threshold: a high time at or above it is a 1 (30_encoding.md R71, 92_eei_decisions.md D13). -/
def classifyNs : Nat := 600
/-- `COLOR_ON_POWER`. -/
def colorOnPower : BitVec colorW := BitVec.ofNat colorW 0x002000
/-- `COLOR_ON_DISC`. -/
def colorOnDisc : BitVec colorW := BitVec.ofNat colorW 0x00FFFF
/-- `COLOR_OFF_POWER`. -/
def colorOffPower : BitVec colorW := BitVec.ofNat colorW 0x200000
/-- `COLOR_OFF_DISC`. -/
def colorOffDisc : BitVec colorW := BitVec.ofNat colorW 0x000000

/-- OPEN `F_CLK_HZ`: clock frequency of the block (00_scope.md R9, 92_eei_decisions.md D12). -/
opaque fClkHz : Nat
/-- OPEN `LED_TOL_NS`: allowed deviation of each LED high or low time (00_scope.md R9, D12). -/
opaque ledTolNs : Nat
/-- OPEN `POLL_MAX_GAP_MS`: most `millis` increments between two consecutive polls (00_scope.md R9, D20). -/
opaque pollMaxGapMs : Nat
/-- OPEN `BOOT_SET_STATE` (00_scope.md R9, D4). -/
opaque bootSetState : BootSetState

end Config

end Sys2Proof
end

