-- ==== Sys2Proof/Word.lean ====
section
/-! DEFINITION. The value types of the block: operation words, timestamps, colours, levels. -/

namespace Sys2Proof

/-- An operation word: 32 bits, one length only (30_encoding.md R74). -/
abbrev Word := BitVec 32

/-- A timestamp or the millisecond counter: `TIME_W` bits, unsigned (00_scope.md R8, 30_encoding.md R70). -/
abbrev Stamp := BitVec Config.timeW

/-- A LedColor: `COLOR_W` bits, 0xRRGGBB (00_scope.md R8, 20_memory.md R50). -/
abbrev LedColor := BitVec Config.colorW

/-- The event flags: `N_EVENTS` bits, one for each event id (00_scope.md R8, 10_state.md R28). -/
abbrev FlagSet := BitVec Config.nEvents

/-- An LED index as the operation word carries it: 0, 1, 2 are LEDs, 3 is out of range (30_encoding.md R79). -/
abbrev LedIndex := BitVec 2

/-- The level of a line: `true` is 1, electrically high; `false` is 0 (00_scope.md R13). -/
abbrev Level := Bool

end Sys2Proof
end

