-- ==== Sys2Proof/Syntax.lean ====
section
/-! DEFINITION. The eleven operations of the block, one constructor per row of the opcode table
(30_encoding.md R72, R80). -/

namespace Sys2Proof

/-- The four events, in the order of their ids (10_state.md R28). -/
inductive Event where
  | buttonPress
  | buttonHold
  | companionPowerRequest
  | companionShutdownComplete
  deriving DecidableEq, Repr

/-- An operation with its operands (30_encoding.md R79). The implicit operands `level` and `now` are not in the
word and not here. -/
inductive Instr where
  /-- `EVSET e` (R100). -/
  | evset (e : Event)
  /-- `EVTAKE e` (R101). -/
  | evtake (e : Event)
  /-- `DEBPOLL` (R110). -/
  | debpoll
  /-- `PLSEND` (R130). -/
  | plsend
  /-- `PLPOLL` (R132). -/
  | plpoll
  /-- `LEDSET i, c` (R140); index 3 is a legal word that faults when it executes (R81). -/
  | ledset (i : LedIndex) (c : LedColor)
  /-- `LEDSHOW` (R142). -/
  | ledshow
  /-- `REGSET en` (R160). -/
  | regset (en : Bool)
  /-- `SVC e` (R172). -/
  | svc (e : Event)
  /-- `TICK` (R190). -/
  | tick
  /-- `EDGE e`, `e` one of the two companion events (R192). -/
  | edge (e : Event)
  deriving DecidableEq, Repr

end Sys2Proof
end

