-- ==== Sys2Proof/WellFormed.lean ====
section
/-! DEFINITION. Which terms of `Instr` have an operation word: all but `EDGE` of a button event
(30_encoding.md R81). -/

namespace Sys2Proof

/-- The two events an edge interrupt can raise (46_async_agents.md R192). -/
def Event.isCompanion : Event → Bool
  | .buttonPress => false
  | .buttonHold => false
  | .companionPowerRequest => true
  | .companionShutdownComplete => true

/-- A term that is the decoding of some word. -/
def Instr.wellFormed : Instr → Bool
  | .evset _ => true
  | .evtake _ => true
  | .debpoll => true
  | .plsend => true
  | .plpoll => true
  | .ledset _ _ => true
  | .ledshow => true
  | .regset _ => true
  | .svc _ => true
  | .tick => true
  | .edge e => e.isCompanion

end Sys2Proof
end

