-- ==== Sys2Proof/Decode.lean ====
section
/-! DEFINITION. Operation words: the opcode map, the total decoder, which rejects by name, and the encoder
(30_encoding.md R74 to R82). -/

namespace Sys2Proof

/-- Why a word is no operation (30_encoding.md R81). -/
inductive Illegal where
  /-- `opc` is 0x0 or 0xC to 0xF. -/
  | reservedOpcode (w : Word)
  /-- `opc` is an operation's, and a must-be-zero bit is set. -/
  | reservedBits (w : Word)
  /-- `opc` is 0xB with bit 27 = 0: the button events have no edge interrupt. -/
  | buttonEdge (w : Word)
  deriving DecidableEq, Repr

/-- The information an IllegalOperation fault carries (60_exceptions.md R200). -/
def Illegal.word : Illegal → Word
  | .reservedOpcode w => w
  | .reservedBits w => w
  | .buttonEdge w => w

/-- A row of the opcode map (30_encoding.md R80). -/
structure OpRow where
  mnemonic : String
  pattern : Word
  mask : Word
  deriving DecidableEq, Repr

/-- `(w & mask) = match` (30_encoding.md R80). -/
def OpRow.holds (r : OpRow) (w : Word) : Bool := w &&& r.mask == r.pattern

def rowEvset : OpRow := ⟨"EVSET", 0x10000000#32, 0xF3FFFFFF#32⟩
def rowEvtake : OpRow := ⟨"EVTAKE", 0x20000000#32, 0xF3FFFFFF#32⟩
def rowDebpoll : OpRow := ⟨"DEBPOLL", 0x30000000#32, 0xFFFFFFFF#32⟩
def rowPlsend : OpRow := ⟨"PLSEND", 0x40000000#32, 0xFFFFFFFF#32⟩
def rowPlpoll : OpRow := ⟨"PLPOLL", 0x50000000#32, 0xFFFFFFFF#32⟩
def rowLedset : OpRow := ⟨"LEDSET", 0x60000000#32, 0xF3000000#32⟩
def rowLedshow : OpRow := ⟨"LEDSHOW", 0x70000000#32, 0xFFFFFFFF#32⟩
def rowRegset : OpRow := ⟨"REGSET", 0x80000000#32, 0xFEFFFFFF#32⟩
def rowSvc : OpRow := ⟨"SVC", 0x90000000#32, 0xF3FFFFFF#32⟩
def rowTick : OpRow := ⟨"TICK", 0xA0000000#32, 0xFFFFFFFF#32⟩
def rowEdge : OpRow := ⟨"EDGE", 0xB8000000#32, 0xFBFFFFFF#32⟩

/-- The complete map (30_encoding.md R80). -/
def opcodeTable : List OpRow :=
  [rowEvset, rowEvtake, rowDebpoll, rowPlsend, rowPlpoll, rowLedset, rowLedshow, rowRegset, rowSvc, rowTick,
    rowEdge]

/-- The row of an operation. -/
def Instr.row : Instr → OpRow
  | .evset _ => rowEvset
  | .evtake _ => rowEvtake
  | .debpoll => rowDebpoll
  | .plsend => rowPlsend
  | .plpoll => rowPlpoll
  | .ledset _ _ => rowLedset
  | .ledshow => rowLedshow
  | .regset _ => rowRegset
  | .svc _ => rowSvc
  | .tick => rowTick
  | .edge _ => rowEdge

/-- The event id, an unsigned 2-bit number (10_state.md R28). -/
def Event.id : Event → BitVec 2
  | .buttonPress => 0#2
  | .buttonHold => 1#2
  | .companionPowerRequest => 2#2
  | .companionShutdownComplete => 3#2

/-- The event of an id: every value names one (30_encoding.md R79). -/
def Event.ofId (n : BitVec 2) : Event :=
  if n = 0#2 then .buttonPress
  else if n = 1#2 then .buttonHold
  else if n = 2#2 then .companionPowerRequest
  else .companionShutdownComplete

/-- `word[31:28]` (30_encoding.md R74). -/
def opcField (w : Word) : BitVec 4 := w.extractLsb' 28 4
/-- `word[27:26]`: event id or LED index. -/
def selField (w : Word) : BitVec 2 := w.extractLsb' 26 2
/-- `word[24]`: the enable bit. -/
def enField (w : Word) : Bool := w.getLsbD 24
/-- `word[23:0]`: the LedColor. -/
def colField (w : Word) : LedColor := (w.extractLsb' 0 24).setWidth Config.colorW

/-- The second half of R82: the row's mask check, then the operands. -/
def OpRow.read (r : OpRow) (w : Word) (i : Instr) : Except Illegal Instr :=
  if r.holds w then .ok i else .error (.reservedBits w)

/-- `opc` 0xB: R81 names the words with bit 27 = 0 apart. -/
def readEdge (w : Word) : Except Illegal Instr :=
  if rowEdge.holds w then .ok (.edge (Event.ofId (selField w)))
  else if w.getLsbD 27 then .error (.reservedBits w)
  else .error (.buttonEdge w)

/-- The decoding algorithm (30_encoding.md R82): total, reads no state. -/
def decode (w : Word) : Except Illegal Instr :=
  match opcField w with
  | 0x1#4 => rowEvset.read w (.evset (Event.ofId (selField w)))
  | 0x2#4 => rowEvtake.read w (.evtake (Event.ofId (selField w)))
  | 0x3#4 => rowDebpoll.read w .debpoll
  | 0x4#4 => rowPlsend.read w .plsend
  | 0x5#4 => rowPlpoll.read w .plpoll
  | 0x6#4 => rowLedset.read w (.ledset (selField w) (colField w))
  | 0x7#4 => rowLedshow.read w .ledshow
  | 0x8#4 => rowRegset.read w (.regset (enField w))
  | 0x9#4 => rowSvc.read w (.svc (Event.ofId (selField w)))
  | 0xA#4 => rowTick.read w .tick
  | 0xB#4 => readEdge w
  | _ => .error (.reservedOpcode w)

/-- Format N: no operand (30_encoding.md R75). -/
def wordN (opc : BitVec 4) : Word := opc ++ 0#28
/-- Format S: selector (30_encoding.md R76). -/
def wordS (opc : BitVec 4) (sel : BitVec 2) : Word := opc ++ sel ++ 0#26
/-- Format C: selector and colour (30_encoding.md R77). -/
def wordC (opc : BitVec 4) (sel : BitVec 2) (col : LedColor) : Word := opc ++ sel ++ 0#2 ++ col.setWidth 24
/-- Format B: one bit (30_encoding.md R78). -/
def wordB (opc : BitVec 4) (en : Bool) : Word := opc ++ 0#3 ++ BitVec.ofBool en ++ 0#24

/-- The word of an operation (30_encoding.md R80). For the ill-formed `EDGE 0`, `EDGE 1` it is the illegal word
R81 names, 0xB0000000 and 0xB4000000. -/
def encode : Instr → Word
  | .evset e => wordS 0x1#4 e.id
  | .evtake e => wordS 0x2#4 e.id
  | .debpoll => wordN 0x3#4
  | .plsend => wordN 0x4#4
  | .plpoll => wordN 0x5#4
  | .ledset i c => wordC 0x6#4 i c
  | .ledshow => wordN 0x7#4
  | .regset en => wordB 0x8#4 en
  | .svc e => wordS 0x9#4 e.id
  | .tick => wordN 0xA#4
  | .edge e => wordS 0xB#4 e.id

/-- What the decoder reads from an instruction whose bits are `w`, bit 0 the least significant; the bits from
`nbits` up are 0. A word has no byte layout in the block (notes/assumptions/15.md). -/
def decodeTableWord (nbits w : Nat) : Option Instr :=
  match decode (BitVec.ofNat 32 (w % 2 ^ nbits)) with
  | .ok i => some i
  | .error _ => none

end Sys2Proof
end

