-- ==== Sys2Proof/Machine/State.lean ====
section
/-! DEFINITION. The state of the block: everything spec/10_state.md names, the bookkeeping it gives the model,
and the model's own fields (the input levels, the agenda, the event trace), with the state after reset. -/

namespace Sys2Proof
namespace Machine

/-- The debouncer's ButtonState, ordered Released < Pressed < Held (10_state.md R22). The code 3 is never written by
any rule, so it has no constructor (notes/assumptions/16.md). -/
inductive ButtonState where
  | released
  | pressed
  | held
  deriving DecidableEq, Repr

/-- The ButtonDebouncer's registers (10_state.md R20 to R22). -/
structure Debouncer where
  /-- `deb.last_level`, 1 bit. -/
  lastLevel : Level
  /-- `deb.ltt`, 32 bits. -/
  ltt : Stamp
  /-- `deb.state`, 2 bits. -/
  state : ButtonState
  deriving DecidableEq, Repr

/-- The PulseRequest (10_state.md R23, R24). -/
structure Pulse where
  /-- `pls.active`, 1 bit. -/
  active : Bool
  /-- `pls.start`, 32 bits. -/
  start : Stamp
  deriving DecidableEq, Repr

/-- The four output lines (10_state.md R30 to R32). -/
structure OutputLines where
  regulatorEnable : Level
  fanControl : Level
  powerPulseOut : Level
  ledData : Level
  deriving DecidableEq, Repr

/-- The levels the environment gives the three input lines (10_state.md R33). The spec calls them free inputs and
no state of the block; the model holds them as data (notes/assumptions/3.md). -/
structure InputLines where
  powerButton : Level
  companionPowerRequest : Level
  companionShutdownComplete : Level
  deriving DecidableEq, Repr

/-- The names of the input lines (60_exceptions.md R213). -/
inductive InputLine where
  | powerButton
  | companionPowerRequest
  | companionShutdownComplete
  deriving DecidableEq, Repr

/-- A recorded fault: its code and its information (60_exceptions.md R200). -/
inductive FaultRecord where
  /-- Code 1, raised by the decoder, with the 32-bit word. -/
  | illegalOperation (word : Word)
  /-- Code 2, raised by LEDSET, with the index. -/
  | ledIndexOutOfRange (index : LedIndex)
  /-- Code 3, raised by PLSEND, with the `now` sampled. -/
  | pulseOverlap (now : Stamp)
  deriving DecidableEq, Repr

/-- LedData is driven to `level`, then `ns` nanoseconds of delay are requested (43_led.md R147). -/
structure Segment where
  level : Level
  ns : Nat
  deriving DecidableEq, Repr

/-- One LEDSHOW's requested segments, in order (43_led.md R147). -/
abbrev Frame := List Segment

/-- What an observer sees of the events (00_scope.md R15; notes/assumptions/7.md). -/
inductive EventObs where
  /-- An EVSET of the event was executed. -/
  | emitted (e : Event)
  /-- An EVTAKE of the event returned 1. -/
  | taken (e : Event)
  deriving DecidableEq, Repr

/-- Whose turn a step is (00_scope.md R14, 20_memory.md R61; notes/assumptions/1.md). -/
inductive Turn where
  /-- The main agent executes the program word at `phase`. -/
  | main
  /-- The timer agent executes TICK. -/
  | timer
  /-- The environment drives an input line; a rising edge of a companion line is the edge agent's EDGE step. -/
  | drive (line : InputLine) (level : Level)
  /-- A word is issued directly (30_encoding.md R73). -/
  | issue (word : Word)
  deriving DecidableEq, Repr

/-- The machine. -/
structure State where
  /-- `deb.*` (10_state.md R20 to R22). -/
  deb : Debouncer
  /-- `pls.*` (10_state.md R23, R24). -/
  pls : Pulse
  /-- `reg`, 1 bit: false RailsOff, true RailsOn (10_state.md R25). -/
  reg : Bool
  /-- `phase`, 3 bits, the program counter (10_state.md R26). -/
  phase : BitVec 3
  /-- `millis`, 32 bits (10_state.md R27). -/
  millis : Stamp
  /-- `evf`, bits 3:0 of the register EVF (10_state.md R28). -/
  evf : FlagSet
  /-- The LedBuffer's bytes that are not 0x00 (10_state.md R29; notes/assumptions/8.md). -/
  mem : List Host.Cell
  /-- The output lines (10_state.md R30 to R32). -/
  lines : OutputLines
  /-- `fault`: the faults recorded so far, without repeats (10_state.md R34). -/
  fault : List FaultRecord
  /-- `ledtrace`: the frames transmitted so far (10_state.md R35). -/
  ledtrace : List Frame
  /-- The input lines' levels: the model's own field (notes/assumptions/3.md). -/
  inputs : InputLines
  /-- The turns to come, first the next; with none, it is the main agent's turn: the model's own field
  (notes/assumptions/1.md). -/
  agenda : List Turn
  /-- The events emitted and taken so far: the model's own field (notes/assumptions/7.md). -/
  evtrace : List EventObs
  deriving DecidableEq, Repr

/-- Why the machine has no next state. No instruction answers one of these: a fault the spec describes is recorded
in the state (60_exceptions.md R200). -/
inductive Fault where
  /-- Raised by `step` when the main agent's turn, or a directly issued word other than TICK and EDGE, comes after
  a recorded fault: the main agent executes no further operation (60_exceptions.md R204,
  93_implementation_defined.md U3). Safe: the model has no step where the spec gives none. -/
  | mainAgentStopped
  /-- Raised by `step` when the main agent's turn finds `phase` 6 or 7, which index no word of the program and
  which no run reaches (10_state.md R26). Safe. -/
  | phaseOutsideProgram
  deriving DecidableEq, Repr

/-- Why an instruction has no meaning. -/
inductive Refusal where
  /-- Raised by `exec` for an operation without a meaning; this model has none such. Safe. -/
  | notModelled (mnemonic : String)
  deriving DecidableEq, Repr

/-- The machine right after power-on (70_reset_and_hazards.md R230), with nothing on the agenda, that is with
`BOOT_SET_STATE = none` (R231; notes/assumptions/10.md). -/
def State.reset : State where
  deb := ⟨true, 0#Config.timeW, .released⟩
  pls := ⟨false, 0#Config.timeW⟩
  reg := false
  phase := 0#3
  millis := 0#Config.timeW
  evf := 0#Config.nEvents
  mem := []
  lines := ⟨false, false, false, false⟩
  fault := []
  ledtrace := []
  inputs := ⟨true, false, false⟩
  agenda := []
  evtrace := []

end Machine
end Sys2Proof
end

