-- ==== Sys2Proof/Machine/Ops.lean ====
section
/-! DEFINITION. The named operations on the state: one update per field, 32-bit wraparound arithmetic, the LedBuffer,
and raising a fault. -/

namespace Sys2Proof
namespace Machine

/-! ### One update per field -/

def State.setDeb (s : State) (d : Debouncer) : State := { s with deb := d }
def State.setPls (s : State) (p : Pulse) : State := { s with pls := p }
def State.setReg (s : State) (b : Bool) : State := { s with reg := b }
def State.setPhase (s : State) (p : BitVec 3) : State := { s with phase := p }
def State.setMillis (s : State) (m : Stamp) : State := { s with millis := m }
def State.setEvf (s : State) (f : FlagSet) : State := { s with evf := f }
def State.setMem (s : State) (m : List Host.Cell) : State := { s with mem := m }
def State.setLines (s : State) (l : OutputLines) : State := { s with lines := l }
def State.setFault (s : State) (f : List FaultRecord) : State := { s with fault := f }
def State.setLedtrace (s : State) (t : List Frame) : State := { s with ledtrace := t }
def State.setInputs (s : State) (i : InputLines) : State := { s with inputs := i }
def State.setAgenda (s : State) (a : List Turn) : State := { s with agenda := a }
def State.setEvtrace (s : State) (t : List EventObs) : State := { s with evtrace := t }

/-! ### Arithmetic (00_scope.md R12) -/

/-- `(a - b) mod 2^TIME_W`. -/
def sub32 (a b : Stamp) : Stamp := a - b

/-- `(a + b) mod 2^TIME_W`. -/
def add32 (a b : Stamp) : Stamp := a + b

/-- `a >=u b`: the unsigned comparison. -/
def geU (a b : Stamp) : Bool := decide (b.toNat ≤ a.toNat)

/-! ### The LedBuffer (20_memory.md R50 to R52)

Byte `j` of entry `i` is the cell at address `BYTES_PER_LED * i + j`, byte 0 the most significant; a cell that is not listed
reads as 0x00, the reset contents of 10_state.md R29. -/

/-- What an unlisted address reads as. -/
def unlistedByte : BitVec 8 := 0#8

/-- The number of byte addresses: `LED_COUNT * BYTES_PER_LED`. -/
def ledBytes : Nat := Config.ledCount * Config.bytesPerLed

/-- The canonical form: addresses strictly rising and inside the LedBuffer, no cell equal to what an unlisted address
reads as. -/
abbrev Memory.wf (m : List Host.Cell) : Prop :=
  m.Pairwise (fun c d => c.1 < d.1) ∧ ∀ c ∈ m, c.1 < ledBytes ∧ c.2 ≠ unlistedByte

/-- The byte at an address. -/
def Memory.readByte (m : List Host.Cell) (a : Nat) : BitVec 8 :=
  match m with
  | [] => unlistedByte
  | (k, v) :: rest => if k = a then v else Memory.readByte rest a

/-- Put a cell in front of the first one with a higher address. -/
def Memory.insertCell (a : Nat) (b : BitVec 8) : List Host.Cell → List Host.Cell
  | [] => [(a, b)]
  | (k, v) :: rest => if a < k then (a, b) :: (k, v) :: rest else (k, v) :: Memory.insertCell a b rest

/-- Store a byte: the address's old cell goes; a new one comes unless an unlisted address reads so anyway. -/
def Memory.writeByte (m : List Host.Cell) (a : Nat) (b : BitVec 8) : List Host.Cell :=
  let rest := m.filter (fun c => decide (c.1 ≠ a))
  if b = unlistedByte then rest else Memory.insertCell a b rest

/-- The address of byte 0 of an entry. -/
def ledAddr (i : LedIndex) : Nat := Config.bytesPerLed * i.toNat

/-- The bytes of an entry, in address order. -/
def entryOffsets : List Nat := List.range Config.bytesPerLed

/-- Byte `j` of a colour, byte 0 the most significant. -/
def colorByte (c : LedColor) (j : Nat) : BitVec 8 := c.extractLsb' (8 * (Config.bytesPerLed - 1 - j)) 8

/-- `MemRead(i, 3)`: the whole entry, `BYTES_PER_LED` bytes. It is performed only for `i` in 0, 1, 2
(20_memory.md R52). -/
def Memory.readEntry (m : List Host.Cell) (i : LedIndex) : LedColor :=
  entryOffsets.foldl (fun c j => c <<< 8 ||| (Memory.readByte m (ledAddr i + j)).setWidth Config.colorW) 0#Config.colorW

/-- `MemWrite(i, 3, c)`: the whole entry, `BYTES_PER_LED` bytes. It is performed only for `i` in 0, 1, 2
(20_memory.md R52). -/
def Memory.writeEntry (m : List Host.Cell) (i : LedIndex) (c : LedColor) : List Host.Cell :=
  entryOffsets.foldl (fun m j => Memory.writeByte m (ledAddr i + j) (colorByte c j)) m

/-- A byte of the state's LedBuffer. -/
def State.readByte (s : State) (a : Nat) : BitVec 8 := Memory.readByte s.mem a

/-- `led[i]`. -/
def State.led (s : State) (i : LedIndex) : LedColor := Memory.readEntry s.mem i

/-- `led[i] <- c`. -/
def State.setLed (s : State) (i : LedIndex) (c : LedColor) : State := s.setMem (Memory.writeEntry s.mem i c)

/-! ### Faults (60_exceptions.md R200)

There is no return from a fault: no handler, no vector, no saved state. -/

/-- The numeric code of a fault. -/
def FaultRecord.code : FaultRecord → Nat
  | .illegalOperation _ => 1
  | .ledIndexOutOfRange _ => 2
  | .pulseOverlap _ => 3

/-- `raise`: record the fault, sticky, and change nothing else; the caller ends there. The main agent's stop follows
from the record (60_exceptions.md R204; notes/assumptions/5.md, 6.md). -/
def raise (r : FaultRecord) (s : State) : State :=
  if r ∈ s.fault then s else s.setFault (s.fault ++ [r])

/-- No fault is recorded. -/
def State.unfaulted (s : State) : Bool := s.fault.isEmpty

end Machine
end Sys2Proof
end

