-- ==== Sys2Proof/Machine/Operands.lean ====
section
/-! DEFINITION. The operands that are not in the word, and the range check of the one that can be out of range
(30_encoding.md R79). -/

namespace Sys2Proof
namespace Machine

/-- `now = millis`, one atomic read when the operation executes (20_memory.md R58, 41_debouncer.md R111,
42_pulse.md R134). -/
def sampleNow (s : State) : Stamp := s.millis

/-- `level = level(PowerButton)`, read once when the operation executes (41_debouncer.md R111). -/
def sampleButton (s : State) : Level := s.inputs.powerButton

/-- `i < LED_COUNT` (43_led.md R140). -/
def ledIndexInRange (i : LedIndex) : Bool := decide (i.toNat < Config.ledCount)

/-- The LED indices in chain order (20_memory.md R51). -/
def ledIndices : List LedIndex := (List.range Config.ledCount).map (BitVec.ofNat 2)

/-- The level of an input line. -/
def InputLines.level (i : InputLines) : InputLine → Level
  | .powerButton => i.powerButton
  | .companionPowerRequest => i.companionPowerRequest
  | .companionShutdownComplete => i.companionShutdownComplete

/-- The environment sets the level of an input line. -/
def InputLines.set (i : InputLines) (line : InputLine) (b : Level) : InputLines :=
  match line with
  | .powerButton => { i with powerButton := b }
  | .companionPowerRequest => { i with companionPowerRequest := b }
  | .companionShutdownComplete => { i with companionShutdownComplete := b }

/-- The event a rising edge of the line raises by interrupt; PowerButton raises none (60_exceptions.md R207). -/
def InputLine.edgeEvent : InputLine → Option Event
  | .powerButton => none
  | .companionPowerRequest => some .companionPowerRequest
  | .companionShutdownComplete => some .companionShutdownComplete

end Machine
end Sys2Proof
end

