-- ==== Sys2Proof/Machine/Flags.lean ====
section
/-! DEFINITION. The event flags (10_state.md R28, R36) and the two atomic accesses to them (20_memory.md R57). -/

namespace Sys2Proof
namespace Machine

/-- `1 << e`. -/
def eventMask (e : Event) : FlagSet := 1#Config.nEvents <<< e.id.toNat

/-- `evf[e]`. -/
def State.flag (s : State) (e : Event) : Bool := s.evf.getLsbD e.id.toNat

/-- The 8-bit register EVF, whose bits 7:4 read as 0 (10_state.md R28). -/
def State.evfRegister (s : State) : BitVec 8 := s.evf.setWidth 8

/-- Append to the observation of the events (00_scope.md R15). -/
def State.observe (s : State) (o : EventObs) : State := s.setEvtrace (s.evtrace ++ [o])

/-- `evf <- evf | (1 << e)`; `emit(e)` is the same (40_eventflags.md R100, 00_scope.md R12). -/
def evSet (e : Event) (s : State) : State := (s.setEvf (s.evf ||| eventMask e)).observe (.emitted e)

/-- Test and clear: the result and the state (40_eventflags.md R101). -/
def evTake (e : Event) (s : State) : Bool × State :=
  let cleared := s.setEvf (s.evf &&& ~~~ eventMask e)
  if s.flag e then (true, cleared.observe (.taken e)) else (false, cleared)

end Machine
end Sys2Proof
end

