-- ==== Sys2Proof/Machine/Pulse.lean ====
section
/-! DEFINITION. PLSEND and PLPOLL (spec/42_pulse.md). -/

namespace Sys2Proof
namespace Machine

/-- `PowerPulseOut <- b`. -/
def drivePulse (b : Level) (s : State) : State := s.setLines { s.lines with powerPulseOut := b }

/-- `send_pulse(now)`: an overlap raises PulseOverlap and writes nothing (R130, R131). -/
def plSend (s : State) : State :=
  let now := sampleNow s
  if s.pls.active then raise (.pulseOverlap now) s
  else (drivePulse true s).setPls ⟨true, now⟩

/-- The outstanding pulse has lasted `PULSE_DURATION_MS` (R132). -/
def pulseDone (p : Pulse) (now : Stamp) : Bool := p.active && geU (sub32 now p.start) Config.pulseDurationMs

/-- `poll_complete(now)` (R132). -/
def plPoll (s : State) : State :=
  if pulseDone s.pls (sampleNow s) then (drivePulse false s).setPls { s.pls with active := false }
  else s

/-- `PLSEND` (R130). -/
def execPlsend (s : State) : Host.Outcome State Fault Refusal := .next (plSend s)

/-- `PLPOLL` (R132). -/
def execPlpoll (s : State) : Host.Outcome State Fault Refusal := .next (plPoll s)

end Machine
end Sys2Proof
end

