-- ==== Sys2Proof/Machine/LedStrip.lean ====
section
/-! DEFINITION. LEDSET and LEDSHOW, the line code of LedData, and the receiver that classifies pulses
(spec/43_led.md, spec/30_encoding.md R71). -/

namespace Sys2Proof
namespace Machine

/-! ### The frame -/

/-- The bits of an entry in the order they leave: bit 23 first (20_memory.md R54). -/
def colorBits (c : LedColor) : List Bool :=
  (List.range Config.colorW).map (fun n => c.getLsbD (Config.colorW - 1 - n))

/-- `frame_bits(led)`: 72 bits, entry 0 first (R143). -/
def frameBits (s : State) : List Bool := ledIndices.flatMap (fun i => colorBits (s.led i))

/-- How long the line stays high for a bit (30_encoding.md R71). -/
def highNs (b : Bool) : Nat := if b then Config.t1hNs else Config.t0hNs

/-- How long the line stays low after it (30_encoding.md R71). -/
def lowNs (b : Bool) : Nat := if b then Config.t1lNs else Config.t0lNs

/-- The pulse of a bit: high, then low (30_encoding.md R71). -/
def pulseSegments (b : Bool) : List Segment := [⟨true, highNs b⟩, ⟨false, lowNs b⟩]

/-- The latch: the line stays low (R146). -/
def latchSegment : Segment := ⟨false, Config.tLatchNs⟩

/-- The segments of a transmission of some bits: their pulses, then the latch (R147). -/
def frameOf (bits : List Bool) : Frame := bits.flatMap pulseSegments ++ [latchSegment]

/-- The level a list of segments leaves the line at, from a level before. -/
def lastLevelOf (before : Level) (f : Frame) : Level := f.foldl (fun _ g => g.level) before

/-- Transmit the LedBuffer: LedData goes through the frame's levels and the frame is appended to the trace; the
critical section is the step itself (R142, R145). -/
def ledShow (s : State) : State :=
  let f := frameOf (frameBits s)
  (s.setLines { s.lines with ledData := lastLevelOf s.lines.ledData f }).setLedtrace (s.ledtrace ++ [f])

/-- Write one entry, the index checked first (R140). -/
def ledSet (i : LedIndex) (c : LedColor) (s : State) : State :=
  if ledIndexInRange i then s.setLed i c else raise (.ledIndexOutOfRange i) s

/-- `LEDSET i, c` (R140). -/
def execLedset (i : LedIndex) (c : LedColor) (s : State) : Host.Outcome State Fault Refusal := .next (ledSet i c s)

/-- `LEDSHOW` (R142). -/
def execLedshow (s : State) : Host.Outcome State Fault Refusal := .next (ledShow s)

/-! ### The receiver (30_encoding.md R71, R143) -/

/-- A pulse is a 1 when its high time is at or above the threshold (30_encoding.md R71). -/
def classify (ns : Nat) : Bool := decide (Config.classifyNs ≤ ns)

/-- The bits of a frame: each high segment classified, the low ones passed over. -/
def frameToBits (f : Frame) : List Bool := (f.filter (fun g => g.level)).map (fun g => classify g.ns)

/-- A colour from its 24 bits, the first the most significant. -/
def packColor (bits : List Bool) : LedColor :=
  bits.foldl (fun c b => c <<< 1 ||| (BitVec.ofBool b).setWidth Config.colorW) 0#Config.colorW

/-- The colours of a frame: its bits packed 24 at a time (R143). -/
def frameToColors (f : Frame) : List LedColor :=
  (List.range Config.ledCount).map
    (fun n => packColor (((frameToBits f).drop (Config.colorW * n)).take Config.colorW))

/-! ### Durations (R148, 00_scope.md R9) -/

/-- The nanoseconds a frame requests. -/
def frameNs (f : Frame) : Nat := (f.map (fun g => g.ns)).sum

/-- The nanoseconds the line is high in a frame. -/
def frameHighNs (f : Frame) : Nat := ((f.filter (fun g => g.level)).map (fun g => g.ns)).sum

/-- Each actual time of a frame is as R144 asks: the high and low times within the tolerance of the nominal ones; the
latch, the last segment, at least the nominal one, because it is a minimum (90_conflicts.md C7) and `LED_TOL_NS` is of
the high and low times only (00_scope.md R9). -/
def frameTimesMet (tolNs : Nat) (f : Frame) (actualNs : List Nat) : Prop :=
  actualNs.length = f.length ∧
  ∀ n g a, f[n]? = some g → actualNs[n]? = some a →
    if n + 1 = f.length then g.ns ≤ a else a ≤ g.ns + tolNs ∧ g.ns ≤ a + tolNs

/-- The same for the open tolerance. -/
def frameMet (f : Frame) (actualNs : List Nat) : Prop := frameTimesMet Config.ledTolNs f actualNs

/-- `ceil(t * F_CLK_HZ / 10^9)`: the cycles of a delay of `t` ns (00_scope.md R9). -/
def delayCycles (fClkHz : Nat) (t : Nat) : Nat := (t * fClkHz + 999999999) / 1000000000

/-- The open clock's cycles for a requested segment (R144). -/
def segmentCycles (g : Segment) : Nat := delayCycles Config.fClkHz g.ns

end Machine
end Sys2Proof
end

