-- ==== Sys2Proof/Machine/Regulator.lean ====
section
/-! DEFINITION. REGSET (spec/44_regulator.md). -/

namespace Sys2Proof
namespace Machine

/-- RegulatorEnable and FanControl in the same instant (R163; notes/assumptions/18.md). -/
def driveRails (en : Bool) (s : State) : State := s.setLines { s.lines with regulatorEnable := en, fanControl := en }

/-- The power LED's colour (R161). -/
def powerColor (en : Bool) : LedColor := if en then Config.colorOnPower else Config.colorOffPower

/-- The disc LEDs' colour (R161). -/
def discColor (en : Bool) : LedColor := if en then Config.colorOnDisc else Config.colorOffDisc

/-- The palette: all three entries (R161). -/
def writePalette (en : Bool) (s : State) : State :=
  ((s.setLed 0#2 (powerColor en)).setLed 1#2 (discColor en)).setLed 2#2 (discColor en)

/-- `set_state(enabled)`: rails, palette, refresh, store; unconditional (R160). -/
def regSet (en : Bool) (s : State) : State := (ledShow (writePalette en (driveRails en s))).setReg en

/-- `REGSET en` (R160). -/
def execRegset (en : Bool) (s : State) : Host.Outcome State Fault Refusal := .next (regSet en s)

end Machine
end Sys2Proof
end

