-- ==== Sys2Proof/Machine/ControlLoop.lean ====
section
/-! DEFINITION. SVC and the fixed loop program (spec/45_controlloop.md). -/

namespace Sys2Proof
namespace Machine

/-- What the power policy does with an event that was taken (R173). -/
inductive PolicyAction where
  | railsOn
  | railsOff
  | sendPulse
  | discard
  deriving DecidableEq, Repr

/-- The policy table, for a flag that was set (R173). -/
def policy (e : Event) (reg : Bool) : PolicyAction :=
  match e, reg with
  | .buttonPress, false => .railsOn
  | .buttonPress, true => .sendPulse
  | .buttonHold, false => .discard
  | .buttonHold, true => .railsOff
  | .companionPowerRequest, false => .railsOn
  | .companionPowerRequest, true => .sendPulse
  | .companionShutdownComplete, false => .discard
  | .companionShutdownComplete, true => .railsOff

/-- Perform the action, by the sub-operations of R172. -/
def applyAction (a : PolicyAction) (s : State) : State :=
  match a with
  | .railsOn => regSet true s
  | .railsOff => regSet false s
  | .sendPulse => plSend s
  | .discard => s

/-- Take one event's flag, then act on the current `reg` (R172, R174). A fault of the PLSEND leaves the flag
cleared. -/
def service (e : Event) (s : State) : State :=
  let r := evTake e s
  if r.1 then applyAction (policy e r.2.reg) r.2 else r.2

/-- `SVC e` (R172). -/
def execSvc (e : Event) (s : State) : Host.Outcome State Fault Refusal := .next (service e s)

/-- The loop program: the six words, immutable (R170, 20_memory.md R63). -/
def loopProgram : List Word :=
  [0x30000000#32, 0x50000000#32, 0x90000000#32, 0x94000000#32, 0x98000000#32, 0x9C000000#32]

/-- The word at index `phase`; none at 6 and 7 (R170). -/
def programWord (phase : BitVec 3) : Option Word := loopProgram[phase.toNat]?

/-- `(phase + 1) mod 6` (R178). -/
def nextPhase (phase : BitVec 3) : BitVec 3 := BitVec.ofNat 3 ((phase.toNat + 1) % loopProgram.length)

/-- The one control transfer: after a completed top-level operation, and not after a fault (R178). -/
def advancePhase (s : State) : State := if s.unfaulted then s.setPhase (nextPhase s.phase) else s

end Machine
end Sys2Proof
end

