-- ==== Sys2Proof/Machine/Debouncer.lean ====
section
/-! DEFINITION. DEBPOLL (spec/41_debouncer.md). -/

namespace Sys2Proof
namespace Machine

/-- Released 0, Pressed 1, Held 2 (10_state.md R22). -/
def ButtonState.code : ButtonState → BitVec 2
  | .released => 0#2
  | .pressed => 1#2
  | .held => 2#2

/-- The order Released < Pressed < Held (10_state.md R22). -/
def ButtonState.below (a b : ButtonState) : Bool := decide (a.code.toNat < b.code.toNat)

/-- Step 1 of the algorithm: a level change restarts the measurement (R110). -/
def noteLevel (d : Debouncer) (level : Level) (now : Stamp) : Debouncer :=
  if level ≠ d.lastLevel then ⟨level, now, .released⟩ else d

/-- Step 2: while the level is the pressed level, at most one advance and one event (R110). -/
def advancePress (d : Debouncer) (now : Stamp) : Debouncer × Option Event :=
  if d.lastLevel = false then
    let elapsed := sub32 now d.ltt
    if geU elapsed Config.pressThresholdMs && d.state.below .pressed then
      ({ d with state := .pressed }, some .buttonPress)
    else if geU elapsed Config.holdThresholdMs && d.state.below .held then
      ({ d with state := .held }, some .buttonHold)
    else (d, none)
  else (d, none)

/-- One poll as a pure function (R112). -/
def debounce (d : Debouncer) (level : Level) (now : Stamp) : Debouncer × Option Event :=
  advancePress (noteLevel d level now) now

/-- `if ev != none: EVSET(ev)` (R112). -/
def emitIfAny (ev : Option Event) (s : State) : State :=
  match ev with
  | none => s
  | some e => evSet e s

/-- `DEBPOLL` (R110, R112). -/
def execDebpoll (s : State) : Host.Outcome State Fault Refusal :=
  let r := debounce s.deb (sampleButton s) (sampleNow s)
  .next (emitIfAny r.2 (s.setDeb r.1))

end Machine
end Sys2Proof
end

