-- ==== Sys2Proof/Machine/EventFlags.lean ====
section
/-! DEFINITION. EVSET and EVTAKE (spec/40_eventflags.md). -/

namespace Sys2Proof
namespace Machine

/-- `EVSET e` (R100). -/
def execEvset (e : Event) (s : State) : Host.Outcome State Fault Refusal := .next (evSet e s)

/-- `EVTAKE e` (R101). The result goes to whoever issued it and is not stored in the block's state (00_scope.md R12);
`evtrace` shows it (notes/assumptions/7.md). -/
def execEvtake (e : Event) (s : State) : Host.Outcome State Fault Refusal := .next (evTake e s).2

end Machine
end Sys2Proof
end

