-- ==== Sys2Proof/Machine/Interrupts.lean ====
section
/-! DEFINITION. TICK and EDGE, the steps of the two interrupt agents (spec/46_async_agents.md). -/

namespace Sys2Proof
namespace Machine

/-- `millis <- (millis + 1) mod 2^TIME_W` (R190). -/
def tick (s : State) : State := s.setMillis (add32 s.millis 1#Config.timeW)

/-- The nanoseconds of real time that one TICK stands for: `TICK_MS` (R191). -/
def tickNs : Nat := Config.tickMs * 1000000

/-- A real interval that a difference of `n` between two samples of `millis` can be: strictly between `n - 1` and
`n + 1` ticks (R191). -/
def realIntervalOf (n ns : Nat) : Prop := n * tickNs < ns + tickNs ∧ ns < (n + 1) * tickNs

/-- `TICK` (R190). -/
def execTick (s : State) : Host.Outcome State Fault Refusal := .next (tick s)

/-- `EDGE e` for a companion event (R192). No word decodes to `EDGE` of a button event; that term stands for the
illegal word R81 names and raises IllegalOperation (notes/assumptions/17.md). -/
def edge (e : Event) (s : State) : State :=
  if e.isCompanion then evSet e s else raise (.illegalOperation (encode (.edge e))) s

/-- `EDGE e` (R192). -/
def execEdge (e : Event) (s : State) : Host.Outcome State Fault Refusal := .next (edge e s)

end Machine
end Sys2Proof
end

