-- ==== Sys2Proof/Machine/Dispatch.lean ====
section
/-! DEFINITION. One arm per operation of the opcode table. -/

namespace Sys2Proof
namespace Machine

/-- What an operation does, by whichever agent issues it. -/
def exec (i : Instr) (s : State) : Host.Outcome State Fault Refusal :=
  match i with
  | .evset e => Sys2Proof.Machine.execEvset e s
  | .evtake e => Sys2Proof.Machine.execEvtake e s
  | .debpoll => Sys2Proof.Machine.execDebpoll s
  | .plsend => Sys2Proof.Machine.execPlsend s
  | .plpoll => Sys2Proof.Machine.execPlpoll s
  | .ledset idx c => Sys2Proof.Machine.execLedset idx c s
  | .ledshow => Sys2Proof.Machine.execLedshow s
  | .regset en => Sys2Proof.Machine.execRegset en s
  | .svc e => Sys2Proof.Machine.execSvc e s
  | .tick => Sys2Proof.Machine.execTick s
  | .edge e => Sys2Proof.Machine.execEdge e s

end Machine
end Sys2Proof
end

