-- ==== Sys2Proof/Machine/Agents.lean ====
section
/-! DEFINITION. Who takes the next step and what word it executes (spec/00_scope.md R14, spec/20_memory.md R61). -/

namespace Sys2Proof
namespace Machine

/-- Whose turn is next: the head of the agenda, or the main agent's when it is empty (notes/assumptions/1.md). -/
def nextTurn (s : State) : Turn :=
  match s.agenda with
  | [] => .main
  | t :: _ => t

/-- The turn is used up. -/
def popTurn (s : State) : State := s.setAgenda s.agenda.tail

/-- An operation of the interrupt context: TICK, EDGE (60_exceptions.md R211). -/
def inInterruptContext : Instr → Bool
  | .evset _ => false
  | .evtake _ => false
  | .debpoll => false
  | .plsend => false
  | .plpoll => false
  | .ledset _ _ => false
  | .ledshow => false
  | .regset _ => false
  | .svc _ => false
  | .tick => true
  | .edge _ => true

/-- Decode a word and execute it; an illegal word is not executed and raises IllegalOperation
(60_exceptions.md R201). -/
def runWord (w : Word) (s : State) : Host.Outcome State Fault Refusal :=
  match decode w with
  | .ok i => exec i s
  | .error r => .next (raise (.illegalOperation r.word) s)

/-- The word decodes to an operation of the interrupt context. -/
def isInterruptWord (w : Word) : Bool :=
  match decode w with
  | .ok i => inInterruptContext i
  | .error _ => false

/-- The main agent: the program word at `phase`, then the advance (45_controlloop.md R170, R178). After a fault it has
no step (60_exceptions.md R204). -/
def mainStep (s : State) : Host.Outcome State Fault Refusal :=
  if s.unfaulted then
    match programWord s.phase with
    | none => .fault .phaseOutsideProgram
    | some w =>
      match runWord w s with
      | .next t => .next (advancePhase t)
      | .fault r => .fault r
      | .refused r => .refused r
  else .fault .mainAgentStopped

/-- The timer agent: TICK (46_async_agents.md R190). -/
def timerStep (s : State) : Host.Outcome State Fault Refusal := runWord (encode .tick) s

/-- A directly issued word: `phase` stays (30_encoding.md R73). After a fault only the interrupt agents' operations
run (60_exceptions.md R204; notes/assumptions/5.md). -/
def issueStep (w : Word) (s : State) : Host.Outcome State Fault Refusal :=
  if s.unfaulted || isInterruptWord w then runWord w s else .fault .mainAgentStopped

/-- The environment drives an input line: on a rising edge of a companion line the edge agent executes EDGE
(46_async_agents.md R192; notes/assumptions/4.md). -/
def driveStep (line : InputLine) (level : Level) (s : State) : Host.Outcome State Fault Refusal :=
  let rising := !s.inputs.level line && level
  let t := s.setInputs (s.inputs.set line level)
  match line.edgeEvent with
  | none => .next t
  | some e => if rising then runWord (encode (.edge e)) t else .next t

/-- One agent's step. -/
def runTurn (t : Turn) (s : State) : Host.Outcome State Fault Refusal :=
  match t with
  | .main => mainStep s
  | .timer => timerStep s
  | .drive line level => driveStep line level s
  | .issue w => issueStep w s

/-- Put a directly issued word first on the agenda (notes/assumptions/2.md). -/
def State.issueNext (s : State) (w : Word) : State := s.setAgenda (.issue w :: s.agenda)

/-- The state the loop is entered from, for each value of `BOOT_SET_STATE`: `off` executes `REGSET 0` once, as a
directly issued word, before the first DEBPOLL (70_reset_and_hazards.md R231). -/
def State.powerOn (b : BootSetState) : State :=
  match b with
  | .none => State.reset
  | .off => State.reset.issueNext (encode (.regset false))

/-- Power-on of the block whose boot parameter is the open one (00_scope.md R9). -/
def State.powerOnOpen : State := State.powerOn Config.bootSetState

end Machine
end Sys2Proof
end

