-- ==== Sys2Proof/Machine/Step.lean ====
section
/-! DEFINITION. One step of the block, and where a word is placed for the next step to run it. -/

namespace Sys2Proof
namespace Machine

/-- One step of whichever agent is next (20_memory.md R61). -/
def step (s : State) : Host.Outcome State Fault Refusal := runTurn (nextTurn s) (popTurn s)

/-- The word whose bits are `w` is the next step's: it stands first on the agenda, issued directly
(30_encoding.md R73; notes/assumptions/2.md). -/
def State.withFetchWord (s : State) (nbits w : Nat) : State := s.issueNext (BitVec.ofNat 32 (w % 2 ^ nbits))

end Machine
end Sys2Proof
end

