-- ==== Sys2Proof/Safety.lean ====
section
/-! DEFINITION. What counts as a good state and a safe run, in the terms the statements use. -/

namespace Sys2Proof
namespace Machine

/-- No fault is recorded: a faulted state is never a good one (60_exceptions.md R200). -/
def State.faultFree (s : State) : Prop := s.fault = []

/-- `phase` indexes a word of the program (10_state.md R26). -/
def State.phaseLegal (s : State) : Prop := s.phase.toNat < 6

/-- `PowerPulseOut = pls.active` (42_pulse.md R135). -/
def State.pulseAgrees (s : State) : Prop := s.lines.powerPulseOut = s.pls.active

/-- `RegulatorEnable = FanControl = reg` (10_state.md R30). -/
def State.railsAgree (s : State) : Prop := s.lines.regulatorEnable = s.reg ∧ s.lines.fanControl = s.reg

/-- While the last level is the released one the state is Released (41_debouncer.md R118). -/
def State.releasedRests (s : State) : Prop := s.deb.lastLevel = true → s.deb.state = .released

/-- LedData is low between frames (43_led.md R146). -/
def State.ledLow (s : State) : Prop := s.lines.ledData = false

/-- The invariants the spec gives of the block, and the canonical form of its memory. -/
structure State.Inv (s : State) : Prop where
  phaseLegal : s.phaseLegal
  pulseAgrees : s.pulseAgrees
  railsAgree : s.railsAgree
  releasedRests : s.releasedRests
  ledLow : s.ledLow
  memory : Memory.wf s.mem

/-- The flags an event trace leaves set, starting from none; no value if an event is taken whose flag is not set
(40_eventflags.md R102). -/
def replay : List EventObs → FlagSet → Option FlagSet
  | [], f => some f
  | .emitted e :: rest, f => replay rest (f ||| eventMask e)
  | .taken e :: rest, f => if f.getLsbD e.id.toNat then replay rest (f &&& ~~~ eventMask e) else none

/-- Every event was taken at most once per set since the last take: the trace accounts for the flags
(40_eventflags.md R102). -/
def State.traceAccounts (s : State) : Prop := replay s.evtrace 0#Config.nEvents = some s.evf

/-- How many of a trace's entries emit an event. -/
def emissions (e : Event) (t : List EventObs) : Nat := t.count (.emitted e)

/-- How many of a trace's entries take an event. -/
def takings (e : Event) (t : List EventObs) : Nat := t.count (.taken e)

/-- What an operation appends to the event trace: DEBPOLL its event, EVSET and EDGE theirs, EVTAKE and SVC the event
if its flag was set, the others nothing (00_scope.md R15, 40_eventflags.md R100, R101). -/
def observations (i : Instr) (s : State) : List EventObs :=
  match i with
  | .evset e => [.emitted e]
  | .evtake e => if s.flag e then [.taken e] else []
  | .debpoll => (debounce s.deb s.inputs.powerButton s.millis).2.toList.map .emitted
  | .plsend => []
  | .plpoll => []
  | .ledset _ _ => []
  | .ledshow => []
  | .regset _ => []
  | .svc e => if s.flag e then [.taken e] else []
  | .tick => []
  | .edge e => if e = .companionPowerRequest ∨ e = .companionShutdownComplete then [.emitted e] else []

/-- The SVC of some events, one after another, until one raises a fault (45_controlloop.md R174, R178). -/
def serviceInOrder : List Event → State → Host.Outcome State Fault Refusal
  | [], s => .next s
  | e :: rest, s =>
    match exec (.svc e) s with
    | .next t => if t.fault = [] then serviceInOrder rest t else .next t
    | .fault r => .fault r
    | .refused r => .refused r

/-- The drain of an iteration: SVC 0, SVC 1, SVC 2, SVC 3 (45_controlloop.md R170). -/
def drain (s : State) : Host.Outcome State Fault Refusal :=
  serviceInOrder [.buttonPress, .buttonHold, .companionPowerRequest, .companionShutdownComplete] s

/-- `t` is `s` after a drain without a fault: all flags taken, `reg` as given, so many frames sent, the pulse as given
(45_controlloop.md R175). -/
def drainedTo (s t : State) (reg : Bool) (frames : Nat) (pls : Pulse) : Prop :=
  t.evf = 0#4 ∧ t.reg = reg ∧ t.ledtrace.length = s.ledtrace.length + frames ∧ t.pls = pls ∧ t.fault = []

/-- The debouncer and the events of a run of polls that all sample one level, at the given times
(41_debouncer.md R115). -/
def pollAll (level : Level) : List Stamp → Debouncer → Debouncer × List Event
  | [], d => (d, [])
  | now :: rest, d =>
    let r := debounce d level now
    let q := pollAll level rest r.1
    (q.1, r.2.toList ++ q.2)

/-- Two polls at most `g` milliseconds apart, in the modular sense (70_reset_and_hazards.md R240). -/
def pollsWithin (g : Nat) (earlier later : Stamp) : Prop := (sub32 later earlier).toNat ≤ g

/-- The open polling condition (00_scope.md R9). -/
def pollsRespectGap (earlier later : Stamp) : Prop := pollsWithin Config.pollMaxGapMs earlier later

/-- The fault list after a fault is raised: a set, so a record that is there stays as it is (60_exceptions.md R200). -/
def recorded (r : FaultRecord) (before : List FaultRecord) : List FaultRecord :=
  if r ∈ before then before else before ++ [r]

/-- `f` is the frame of a buffer, segment by segment: bit `n` of the frame is bit `23 - n mod 24` of entry
`n div 24`; a 1 is 900 ns high and 300 ns low, a 0 is 300 ns high and 900 ns low; after the 72 pulses the line is
low for 50 000 ns (43_led.md R142, R143, R147). -/
def frameShows (led : LedIndex → LedColor) (f : Frame) : Prop :=
  f.length = 145 ∧
  (∀ n, n < 72 →
    f[2 * n]? = some ⟨true, if (led (BitVec.ofNat 2 (n / 24))).getLsbD (23 - n % 24) then 900 else 300⟩ ∧
    f[2 * n + 1]? = some ⟨false, if (led (BitVec.ofNat 2 (n / 24))).getLsbD (23 - n % 24) then 300 else 900⟩) ∧
  f[144]? = some ⟨false, 50000⟩

/-- How many bits of a buffer are 1. -/
def litBits (led : LedIndex → LedColor) : Nat :=
  (List.range 72).countP (fun n => (led (BitVec.ofNat 2 (n / 24))).getLsbD (23 - n % 24))

/-- `t` is `s` after `set_state(en)` sent the frame `f`: both rail lines at `en`, the palette of `en` in the buffer and
on the wire, `reg` stored, and nothing else changed (44_regulator.md R160, R161). -/
def railsSwitched (en : Bool) (s t : State) (f : Frame) : Prop :=
  t = { s with
    lines := ⟨en, en, s.lines.powerPulseOut, false⟩
    mem := t.mem
    ledtrace := s.ledtrace ++ [f]
    reg := en } ∧
  t.led 0#2 = (if en then 0x002000#24 else 0x200000#24) ∧
  t.led 1#2 = (if en then 0x00FFFF#24 else 0x000000#24) ∧
  t.led 2#2 = (if en then 0x00FFFF#24 else 0x000000#24) ∧
  frameShows t.led f ∧
  ∀ a, ledBytes ≤ a → t.readByte a = s.readByte a

end Machine
end Sys2Proof
end

