-- ==== Sys2Proof/Certificates/Slice0/Obligations.lean ====
section
/-! DEFINITION. The statements for the provers. -/

open Sys2Proof Sys2Proof.Machine

/-! ### Words -/

/-- Decoding an encoded operation gives it back, for every operand value its word admits
(30_encoding.md, R79, R80, R82). -/
def Obligations.DecodeOfEncodeIsTheInstruction : Prop :=
  ∀ i : Instr, i.wellFormed = true → decode (encode i) = .ok i

/-- Every operation word has one meaning: encoding what it decodes to gives the word back, so no bit is dropped
(30_encoding.md, R79, R80, R82). -/
def Obligations.EncodeOfDecodeIsTheWord : Prop :=
  ∀ (w : Word) (i : Instr), decode w = .ok i → encode i = w ∧ i.wellFormed = true

/-- From 30_encoding.md R80, the spec's own decision D6: the opcode map and its two claims, that a word is an operation
exactly when a row matches and that no two rows overlap. -/
def Obligations.WordIsAnOperationIffOneRowMatches : Prop :=
  opcodeTable.map (fun r => (r.mnemonic, r.pattern, r.mask)) =
    [("EVSET", 0x10000000#32, 0xF3FFFFFF#32), ("EVTAKE", 0x20000000#32, 0xF3FFFFFF#32),
      ("DEBPOLL", 0x30000000#32, 0xFFFFFFFF#32), ("PLSEND", 0x40000000#32, 0xFFFFFFFF#32),
      ("PLPOLL", 0x50000000#32, 0xFFFFFFFF#32), ("LEDSET", 0x60000000#32, 0xF3000000#32),
      ("LEDSHOW", 0x70000000#32, 0xFFFFFFFF#32), ("REGSET", 0x80000000#32, 0xFEFFFFFF#32),
      ("SVC", 0x90000000#32, 0xF3FFFFFF#32), ("TICK", 0xA0000000#32, 0xFFFFFFFF#32),
      ("EDGE", 0xB8000000#32, 0xFBFFFFFF#32)] ∧
  ∀ w : Word,
    ((∃ i, decode w = .ok i) ↔ ∃ r ∈ opcodeTable, w &&& r.mask = r.pattern) ∧
    (∀ i, decode w = .ok i → w &&& i.row.mask = i.row.pattern) ∧
    ∀ r ∈ opcodeTable, ∀ r' ∈ opcodeTable,
      w &&& r.mask = r.pattern → w &&& r'.mask = r'.pattern → r = r'

/-- From 30_encoding.md R81 and 60_exceptions.md R201, the spec's own decision D21: a word that matches no row raises IllegalOperation with the word as its information and changes
nothing else; the words R81 names are such; the words of the running block and `LEDSET 3, c` are not. -/
def Obligations.IllegalWordRaisesIllegalOperation : Prop :=
  (∀ (w : Word) (s : State), (∀ r ∈ opcodeTable, w &&& r.mask ≠ r.pattern) →
    runWord w s = .next { s with fault := recorded (.illegalOperation w) s.fault }) ∧
  (∀ w : Word, (w.extractLsb' 28 4 = 0x0#4 ∨ 0xC ≤ (w.extractLsb' 28 4).toNat) →
    ∀ r ∈ opcodeTable, w &&& r.mask ≠ r.pattern) ∧
  (∀ w : Word, w.extractLsb' 28 4 = 0xB#4 → w.getLsbD 27 = false →
    ∀ r ∈ opcodeTable, w &&& r.mask ≠ r.pattern) ∧
  (∀ w : Word, ∀ r ∈ opcodeTable, opcField w = opcField r.pattern → w &&& r.mask ≠ r.pattern →
    ∀ r' ∈ opcodeTable, w &&& r'.mask ≠ r'.pattern) ∧
  (∀ w ∈ loopProgram ++ [0xA0000000#32, 0xB8000000#32, 0xBC000000#32],
    ∃ r ∈ opcodeTable, w &&& r.mask = r.pattern) ∧
  ∀ c : LedColor, decode (0x6C#8 ++ c) = .ok (.ledset 3#2 c)

/-- The words 30_encoding.md R80 assembles as examples (the spec's own decision D6) decode to the operations it gives
them. -/
def Obligations.ExampleWordsOfTheMapDecode : Prop :=
  decode 0x18000000#32 = .ok (.evset .companionPowerRequest) ∧
  decode 0x2C000000#32 = .ok (.evtake .companionShutdownComplete) ∧
  decode 0x30000000#32 = .ok .debpoll ∧
  decode 0x40000000#32 = .ok .plsend ∧
  decode 0x50000000#32 = .ok .plpoll ∧
  decode 0x6400FFFF#32 = .ok (.ledset 1#2 0x00FFFF#24) ∧
  decode 0x68123456#32 = .ok (.ledset 2#2 0x123456#24) ∧
  decode 0x70000000#32 = .ok .ledshow ∧
  decode 0x80000000#32 = .ok (.regset false) ∧
  decode 0x81000000#32 = .ok (.regset true) ∧
  decode 0x90000000#32 = .ok (.svc .buttonPress) ∧
  decode 0x94000000#32 = .ok (.svc .buttonHold) ∧
  decode 0x98000000#32 = .ok (.svc .companionPowerRequest) ∧
  decode 0x9C000000#32 = .ok (.svc .companionShutdownComplete) ∧
  decode 0xA0000000#32 = .ok .tick ∧
  decode 0xB8000000#32 = .ok (.edge .companionPowerRequest) ∧
  decode 0xBC000000#32 = .ok (.edge .companionShutdownComplete)

/-! ### Event flags -/

/-- R100: EVSET ORs the event's bit into the flags; the other bits, and everything else the spec gives the machine,
stay; a set that finds the flag set changes no flag. -/
def Obligations.EvsetSetsItsFlagAndNothingElse : Prop :=
  ∀ (e : Event) (s : State),
    encode (.evset e) = 0x10000000#32 ||| (e.id.setWidth 32 <<< 26) ∧
    ∃ t, exec (.evset e) s = .next t ∧
      t = { s with evf := s.evf ||| (1#4 <<< e.id.toNat), evtrace := t.evtrace } ∧
      t.flag e = true ∧ (∀ e', e' ≠ e → t.flag e' = s.flag e') ∧
      (s.flag e = true → t.evf = s.evf) ∧
      ∀ a, t.readByte a = s.readByte a

/-- R101: EVTAKE returns the flag and clears it; the other bits, and everything else the spec gives the machine,
stay; where the flag is clear the state is unchanged. -/
def Obligations.EvtakeReturnsItsFlagAndClearsIt : Prop :=
  ∀ (e : Event) (s : State),
    encode (.evtake e) = 0x20000000#32 ||| (e.id.setWidth 32 <<< 26) ∧
    ∃ t, exec (.evtake e) s = .next t ∧
      evTake e s = (s.flag e, t) ∧
      t = { s with evf := s.evf &&& ~~~(1#4 <<< e.id.toNat), evtrace := t.evtrace } ∧
      t.flag e = false ∧ (∀ e', e' ≠ e → t.flag e' = s.flag e') ∧
      (s.flag e = false → t = s) ∧
      ∀ a, t.readByte a = s.readByte a

/-- What the model's event trace shows (00_scope.md, the third observation; notes/assumptions/7.md): every operation
appends what `observations` names and nothing else. EVSET appends its event; EVTAKE, and the EVTAKE inside SVC, append
the event exactly when the flag was set; DEBPOLL appends the one event its poll emits, if any; EDGE of a companion event
appends it; the others append nothing. A step appends the observations of the one operation it executes, or nothing. -/
def Obligations.EventTraceShowsSetsAndTakes : Prop :=
  (∀ (i : Instr) (s : State), ∃ t, exec i s = .next t ∧ t.evtrace = s.evtrace ++ observations i s) ∧
  (∀ s : State, ∀ t, exec .debpoll s = .next t →
    (t.deb.state = s.deb.state → observations .debpoll s = []) ∧
    (observations .debpoll s = [] ∨
      (t.deb.state = .pressed ∧ observations .debpoll s = [.emitted .buttonPress]) ∨
      (t.deb.state = .held ∧ observations .debpoll s = [.emitted .buttonHold]))) ∧
  (∀ s t : State, step s = .next t →
    t.evtrace = s.evtrace ∨ ∃ o, t.evtrace = s.evtrace ++ [o])

/-- From 20_memory.md R57: a set and a take of different events give the same flags and the same result in either
order. -/
def Obligations.SetAndTakeOfDifferentEventsCommute : Prop :=
  ∀ (e e' : Event) (s : State), e ≠ e' →
    (evTake e' (evSet e s)).1 = (evTake e' s).1 ∧
    (evTake e' (evSet e s)).2.evf = (evSet e (evTake e' s).2).evf

/-- From 40_eventflags.md R102: the trace accounts for the flags, whatever step is taken
(the trace is the model's own field, notes/assumptions/7.md). -/
def Obligations.StepKeepsTraceAccount : Prop :=
  ∀ s t : State, s.traceAccounts → step s = .next t → t.traceAccounts

/-- The trace accounts for the flags after reset, for both values of `BOOT_SET_STATE`. -/
def Obligations.TraceAccountAtPowerOn : Prop :=
  ∀ b : BootSetState, (State.powerOn b).traceAccounts

/-- From 40_eventflags.md R102: an event was taken at most as often as it was set; a flag still set is a set not
taken. -/
def Obligations.TakesNeverExceedSets : Prop :=
  ∀ (e : Event) (s : State), s.traceAccounts →
    takings e s.evtrace + (if s.flag e then 1 else 0) ≤ emissions e s.evtrace

/-- From 40_eventflags.md R102: between two takes of one event there is a set of it. -/
def Obligations.BetweenTwoTakesThereIsASet : Prop :=
  ∀ (e : Event) (s : State) (before between after : List EventObs), s.traceAccounts →
    s.evtrace = before ++ .taken e :: between ++ .taken e :: after → .emitted e ∈ between

/-! ### Debouncer -/

/-- R110: DEBPOLL, the source's algorithm in terms of the registers: a level change restarts the measurement; while
pressed, 10 ms advance Released to Pressed with ButtonPress, else 2000 ms advance to Held with ButtonHold. -/
def Obligations.DebpollRunsTheDebounceAlgorithm : Prop :=
  ∀ s : State,
    let level := s.inputs.powerButton
    let changed : Bool := level != s.deb.lastLevel
    let ltt := if changed then s.millis else s.deb.ltt
    let before := if changed then .released else s.deb.state
    let elapsed := (s.millis.toNat + 2 ^ 32 - ltt.toNat) % 2 ^ 32
    let press : Bool := !level && decide (10 ≤ elapsed) && decide (before = .released)
    let hold : Bool := !level && decide (2000 ≤ elapsed) && decide (before ≠ .held)
    encode .debpoll = 0x30000000#32 ∧
    ∃ t, exec .debpoll s = .next t ∧
      t = { s with
        deb := ⟨level, ltt, if press then .pressed else if hold then .held else before⟩
        evf := if press then s.evf ||| 1#4 else if hold then s.evf ||| 2#4 else s.evf
        evtrace := t.evtrace } ∧
      ∀ a, t.readByte a = s.readByte a

/-- From 41_debouncer.md R113: the transition table of one poll. -/
def Obligations.DebounceFollowsTheTransitionTable : Prop :=
  ∀ (d : Debouncer) (level : Level) (now : Stamp),
    let elapsed := (sub32 now d.ltt).toNat
    (level ≠ d.lastLevel → debounce d level now = (⟨level, now, .released⟩, none)) ∧
    (level = d.lastLevel → level = true → debounce d level now = (d, none)) ∧
    (level = d.lastLevel → level = false →
      (d.state = .released → elapsed < 10 → debounce d level now = (d, none)) ∧
      (d.state = .released → 10 ≤ elapsed →
        debounce d level now = (⟨d.lastLevel, d.ltt, .pressed⟩, some .buttonPress)) ∧
      (d.state = .pressed → elapsed < 2000 → debounce d level now = (d, none)) ∧
      (d.state = .pressed → 2000 ≤ elapsed →
        debounce d level now = (⟨d.lastLevel, d.ltt, .held⟩, some .buttonHold)) ∧
      (d.state = .held → debounce d level now = (d, none)))

/-- From 41_debouncer.md R114: ButtonHold comes only from Pressed and leads to Held; a poll that finds Released after
two seconds and more emits ButtonPress, and the next one ButtonHold. -/
def Obligations.PressComesBeforeHold : Prop :=
  (∀ (d : Debouncer) (level : Level) (now : Stamp), (debounce d level now).2 = some .buttonHold →
    level = false ∧ d.lastLevel = false ∧ d.state = .pressed ∧ (debounce d level now).1.state = .held) ∧
  ∀ (d : Debouncer) (now later : Stamp), d.lastLevel = false → d.state = .released →
    2000 ≤ (sub32 now d.ltt).toNat → 2000 ≤ (sub32 later d.ltt).toNat →
    (debounce d false now).2 = some .buttonPress ∧
    (debounce (debounce d false now).1 false later).2 = some .buttonHold

/-- From 41_debouncer.md R114, R115: while the button stays down, whatever the times of the polls, ButtonPress and
ButtonHold are each emitted at most once; in a press whose first poll observes the change, press comes before hold. -/
def Obligations.OnePressAndOneHoldPerPress : Prop :=
  ∀ (d : Debouncer) (times : List Stamp),
    (pollAll false times d).2.count .buttonPress ≤ 1 ∧
    (pollAll false times d).2.count .buttonHold ≤ 1 ∧
    (d.lastLevel = true →
      (pollAll false times d).2 = [] ∨ (pollAll false times d).2 = [.buttonPress] ∨
        (pollAll false times d).2 = [.buttonPress, .buttonHold])

/-- From 41_debouncer.md R119 and 42_pulse.md R132: `n` ticks after a stamp, the elapsed time is `n` across the
counter's rollover, and the thresholds are met exactly from 10, 2000 and 30 ticks on. -/
def Obligations.ElapsedTimeSurvivesRollover : Prop :=
  ∀ (stamp : Stamp) (n : Nat), n < 2 ^ 32 →
    (sub32 (stamp + BitVec.ofNat 32 n) stamp).toNat = n ∧
    ((debounce ⟨false, stamp, .released⟩ false (stamp + BitVec.ofNat 32 n)).2 = some .buttonPress ↔ 10 ≤ n) ∧
    ((debounce ⟨false, stamp, .pressed⟩ false (stamp + BitVec.ofNat 32 n)).2 = some .buttonHold ↔ 2000 ≤ n) ∧
    (pulseDone ⟨true, stamp⟩ (stamp + BitVec.ofNat 32 n) = true ↔ 30 ≤ n)

/-- From 41_debouncer.md R117: with polls at most `g` ticks apart, the poll that emits ButtonPress comes 10 to
`10 + g - 1` ticks after the press was first sampled, and the one that emits ButtonHold 2000 to `2000 + g - 1`, when
the poll before it had not reached the threshold. -/
def Obligations.PressAndHoldComeWithinThePollSpacing : Prop :=
  ∀ (d : Debouncer) (earlier later : Stamp) (g : Nat), d.lastLevel = false → pollsWithin g earlier later →
    ((sub32 earlier d.ltt).toNat < 10 → (debounce d false later).2 = some .buttonPress →
      10 ≤ (sub32 later d.ltt).toNat ∧ (sub32 later d.ltt).toNat ≤ 10 + g - 1) ∧
    ((sub32 earlier d.ltt).toNat < 2000 → (debounce d false later).2 = some .buttonHold →
      2000 ≤ (sub32 later d.ltt).toNat ∧ (sub32 later d.ltt).toNat ≤ 2000 + g - 1)

/-! ### Power pulse -/

/-- From 42_pulse.md R130, R131: PLSEND with no pulse active drives the line high and records the start; with one
active it raises PulseOverlap and changes nothing else, the spec's own decision D9. -/
def Obligations.PlsendStartsAPulseOrRaisesOverlap : Prop :=
  ∀ s : State,
    encode .plsend = 0x40000000#32 ∧
    (s.pls.active = false →
      exec .plsend s = .next { s with
        lines := { s.lines with powerPulseOut := true }
        pls := ⟨true, s.millis⟩ }) ∧
    (s.pls.active = true →
      exec .plsend s = .next { s with fault := recorded (.pulseOverlap s.millis) s.fault }) ∧
    ∀ t, exec .plsend s = .next t → ∀ a, t.readByte a = s.readByte a

/-- R132: PLPOLL ends the pulse exactly when one is active and 30 ms have passed; the start keeps its value. -/
def Obligations.PlpollEndsThePulseAfterItsDuration : Prop :=
  ∀ s : State,
    let elapsed := (s.millis.toNat + 2 ^ 32 - s.pls.start.toNat) % 2 ^ 32
    encode .plpoll = 0x50000000#32 ∧
    (s.pls.active = true → 30 ≤ elapsed →
      exec .plpoll s = .next { s with
        lines := { s.lines with powerPulseOut := false }
        pls := ⟨false, s.pls.start⟩ }) ∧
    (s.pls.active = false ∨ elapsed < 30 → exec .plpoll s = .next s) ∧
    ∀ t, exec .plpoll s = .next t → ∀ a, t.readByte a = s.readByte a

/-- From 42_pulse.md R133: with polls at most `g` ticks apart, the poll that ends the pulse comes 30 to `30 + g - 1`
ticks after its start, when the poll before it had not reached 30. -/
def Obligations.PulseEndsWithinThePollSpacing : Prop :=
  ∀ (p : Pulse) (earlier later : Stamp) (g : Nat), pollsWithin g earlier later →
    (sub32 earlier p.start).toNat < 30 → pulseDone p later = true →
    30 ≤ (sub32 later p.start).toNat ∧ (sub32 later p.start).toNat ≤ 30 + g - 1

/-- From 10_state.md R31 and 42_pulse.md R130: no operation but PLPOLL lowers PowerPulseOut. -/
def Obligations.OnlyPlpollLowersPowerPulseOut : Prop :=
  ∀ (i : Instr) (s t : State), exec i s = .next t →
    s.lines.powerPulseOut = true → t.lines.powerPulseOut = false → i = .plpoll

/-! ### LEDs -/

/-- From 43_led.md R140: LEDSET writes its one entry and nothing else; with index 3 it raises LedIndexOutOfRange and
writes nothing, the spec's own decision D10. -/
def Obligations.LedsetWritesItsEntryOrRaisesOutOfRange : Prop :=
  ∀ (i : LedIndex) (c : LedColor) (s : State),
    encode (.ledset i c) = 0x60000000#32 ||| (i.setWidth 32 <<< 26) ||| c.setWidth 32 ∧
    (i.toNat < 3 →
      ∃ t, exec (.ledset i c) s = .next t ∧ t = { s with mem := t.mem } ∧
        t.led i = c ∧ (∀ j, j ≠ i → t.led j = s.led j) ∧
        ∀ a, a < ledAddr i ∨ ledAddr i + 3 ≤ a → t.readByte a = s.readByte a) ∧
    (i = 3#2 →
      exec (.ledset i c) s = .next { s with fault := recorded (.ledIndexOutOfRange i) s.fault })

/-- R142, R147: LEDSHOW appends one frame, that of the buffer, segment by segment, leaves LedData low and changes
nothing else. -/
def Obligations.LedshowSendsTheBufferAsOneFrame : Prop :=
  ∀ s : State,
    encode .ledshow = 0x70000000#32 ∧
    ∃ t f, exec .ledshow s = .next t ∧ frameShows s.led f ∧
      t = { s with lines := { s.lines with ledData := false }, ledtrace := s.ledtrace ++ [f] } ∧
      ∀ a, t.readByte a = s.readByte a

/-- From 43_led.md R143: the frame LEDSHOW sends, classified by high time (a 1 from 600 ns on, the spec's own decision
D13) and packed 24 bits at a time, gives back the three entries. -/
def Obligations.SentFrameDecodesToTheBuffer : Prop :=
  ∀ s t : State, exec .ledshow s = .next t →
    t.ledtrace.getLast?.map frameToColors = some [s.led 0#2, s.led 1#2, s.led 2#2]

/-- From 43_led.md R148: a frame requests 136 400 ns whatever the data, and the line is high for 900 ns per 1 and
300 ns per 0. -/
def Obligations.FrameDurationIsFixed : Prop :=
  ∀ s t : State, exec .ledshow s = .next t →
    t.ledtrace.getLast?.map frameNs = some 136400 ∧
    t.ledtrace.getLast?.map frameHighNs = some (900 * litBits s.led + 300 * (72 - litBits s.led))

/-- From 43_led.md R144, 90_conflicts.md C7 and the spec's own decision D12, for every tolerance and clock: the actual
times of the frame LEDSHOW sends are as asked exactly when there are 145 of them, each high and low time of a pulse is
within the tolerance of its nominal 900 or 300 ns, and the latch lasts 50 000 ns or longer; the cycles of a delay are
the least number that lasts it (the times are nominal, notes/assumptions/12.md). -/
def Obligations.FrameTimesHaveATolerancedPulseAndAMinimumLatch : Prop :=
  (∀ (s t : State) (tol : Nat) (actual : List Nat), exec .ledshow s = .next t →
    ∃ f, t.ledtrace = s.ledtrace ++ [f] ∧
      (frameTimesMet tol f actual ↔
        actual.length = 145 ∧
        (∀ n, n < 72 →
          let bit := (s.led (BitVec.ofNat 2 (n / 24))).getLsbD (23 - n % 24)
          let high := if bit then 900 else 300
          let low := if bit then 300 else 900
          (∃ a, actual[2 * n]? = some a ∧ a ≤ high + tol ∧ high ≤ a + tol) ∧
          ∃ a, actual[2 * n + 1]? = some a ∧ a ≤ low + tol ∧ low ≤ a + tol) ∧
        ∃ a, actual[144]? = some a ∧ 50000 ≤ a)) ∧
  ∀ hz ns c : Nat, delayCycles hz ns ≤ c ↔ ns * hz ≤ c * 10 ^ 9

/-- From 10_state.md R35: a step leaves the trace of frames as it is or appends one frame, which shows the buffer
the step leaves. -/
def Obligations.StepSendsAtMostOneFrameOfItsBuffer : Prop :=
  ∀ s t : State, step s = .next t →
    t.ledtrace = s.ledtrace ∨ ∃ f, t.ledtrace = s.ledtrace ++ [f] ∧ frameShows t.led f

/-- From 20_memory.md R53: the only bytes an operation changes are those of LEDSET's entry and, for REGSET and an SVC
that switches the rails, those of the three entries. -/
def Obligations.BufferChangesOnlyByLedWrites : Prop :=
  ∀ (i : Instr) (s t : State) (a : Nat), exec i s = .next t → t.readByte a ≠ s.readByte a →
    (∃ n c, i = .ledset n c ∧ n.toNat < 3 ∧ ledAddr n ≤ a ∧ a < ledAddr n + 3) ∨
    (∃ en, i = .regset en ∧ a < ledBytes) ∨
    (∃ e, i = .svc e ∧ s.flag e = true ∧ a < ledBytes ∧
      (s.reg = false ∧ (e = .buttonPress ∨ e = .companionPowerRequest) ∨
        s.reg = true ∧ (e = .buttonHold ∨ e = .companionShutdownComplete)))

/-! ### Regulator and control loop -/

/-- R160, R161: REGSET drives both rail lines, writes the palette, sends its frame and stores the state,
unconditionally, and changes nothing else. -/
def Obligations.RegsetSwitchesRailsAndShowsThePalette : Prop :=
  ∀ (en : Bool) (s : State),
    encode (.regset en) = 0x80000000#32 ||| ((BitVec.ofBool en).setWidth 32 <<< 24) ∧
    ∃ t f, exec (.regset en) s = .next t ∧ railsSwitched en s t f

/-- R173: the policy table. With a clear flag SVC does nothing; with a set one it clears the flag and is REGSET 1,
PLSEND, REGSET 0 or nothing, by the event and `reg`, and `reg` is afterwards what the table says. -/
def Obligations.SvcPerformsTheActionOfThePolicyTable : Prop :=
  ∀ (e : Event) (s : State),
    let taken := (evTake e s).2
    let request := e = .buttonPress ∨ e = .companionPowerRequest
    let shutdown := e = .buttonHold ∨ e = .companionShutdownComplete
    taken.evf = s.evf &&& ~~~(1#4 <<< e.id.toNat) ∧
    ∃ t, exec (.svc e) s = .next t ∧
      (s.flag e = false → t = s) ∧
      (s.flag e = true → request → s.reg = false → exec (.regset true) taken = .next t ∧ t.reg = true) ∧
      (s.flag e = true → request → s.reg = true → exec .plsend taken = .next t ∧ t.reg = true) ∧
      (s.flag e = true → shutdown → s.reg = false → t = taken ∧ t.reg = false) ∧
      (s.flag e = true → shutdown → s.reg = true → exec (.regset false) taken = .next t ∧ t.reg = false)

/-- From 45_controlloop.md R172: SVC of a clear flag changes nothing; of a set flag it clears it and acts on `reg` by
the policy, each effect written out; an overlap of pulses (the spec's own decision D9) leaves the flag cleared. -/
def Obligations.SvcFollowsThePowerPolicy : Prop :=
  ∀ (e : Event) (s : State),
    let cleared := s.evf &&& ~~~(1#4 <<< e.id.toNat)
    let request := e = .buttonPress ∨ e = .companionPowerRequest
    let shutdown := e = .buttonHold ∨ e = .companionShutdownComplete
    encode (.svc e) = 0x90000000#32 ||| (e.id.setWidth 32 <<< 26) ∧
    (s.flag e = false → exec (.svc e) s = .next s) ∧
    (s.flag e = true → request → s.reg = false →
      ∃ t f, exec (.svc e) s = .next t ∧
        railsSwitched true { s with evf := cleared, evtrace := t.evtrace } t f) ∧
    (s.flag e = true → request → s.reg = true → s.pls.active = false →
      ∃ t, exec (.svc e) s = .next t ∧
        t = { s with
          evf := cleared
          lines := { s.lines with powerPulseOut := true }
          pls := ⟨true, s.millis⟩
          evtrace := t.evtrace }) ∧
    (s.flag e = true → request → s.reg = true → s.pls.active = true →
      ∃ t, exec (.svc e) s = .next t ∧
        t = { s with
          evf := cleared
          fault := recorded (.pulseOverlap s.millis) s.fault
          evtrace := t.evtrace }) ∧
    (s.flag e = true → shutdown → s.reg = true →
      ∃ t f, exec (.svc e) s = .next t ∧
        railsSwitched false { s with evf := cleared, evtrace := t.evtrace } t f) ∧
    (s.flag e = true → shutdown → s.reg = false →
      ∃ t, exec (.svc e) s = .next t ∧ t = { s with evf := cleared, evtrace := t.evtrace })

/-- From 45_controlloop.md R174, R175 (the spec's own decision D8): an SVC reads `reg` and the flags as an SVC of
another event left them, and is the action of the policy on that state. So with the rails on, a hold and then a power
request switch them off and on again, with two frames; with the rails off, a press and then a power request switch them
on and start a pulse; with the rails on, the same two overlap; with the rails on, a hold and then a completed shutdown
switch them off once and the latter is discarded; a power request and then a completed shutdown start a pulse and switch
them off. -/
def Obligations.LaterSvcReadsTheRegOfTheEarlier : Prop :=
  (∀ (e e' : Event) (s t : State), e ≠ e' → exec (.svc e) s = .next t → s.flag e' = true →
    t.flag e' = true ∧
    (e' = .buttonPress ∨ e' = .companionPowerRequest → t.reg = false →
      exec (.svc e') t = exec (.regset true) (evTake e' t).2) ∧
    (e' = .buttonPress ∨ e' = .companionPowerRequest → t.reg = true →
      exec (.svc e') t = exec .plsend (evTake e' t).2) ∧
    (e' = .buttonHold ∨ e' = .companionShutdownComplete → t.reg = true →
      exec (.svc e') t = exec (.regset false) (evTake e' t).2) ∧
    (e' = .buttonHold ∨ e' = .companionShutdownComplete → t.reg = false →
      exec (.svc e') t = .next (evTake e' t).2)) ∧
  (∀ s : State, s.flag .companionShutdownComplete = true → s.reg = true →
    (s.flag .buttonHold = true →
      ∃ t u f, exec (.svc .buttonHold) s = .next t ∧ t.reg = false ∧
        exec (.svc .companionShutdownComplete) t = .next u ∧ u.reg = false ∧
        u.flag .companionShutdownComplete = false ∧ u.ledtrace = s.ledtrace ++ [f] ∧ u.pls = s.pls) ∧
    (s.flag .companionPowerRequest = true → s.pls.active = false →
      ∃ t u f, exec (.svc .companionPowerRequest) s = .next t ∧ t.reg = true ∧ t.pls = ⟨true, s.millis⟩ ∧
        exec (.svc .companionShutdownComplete) t = .next u ∧ u.reg = false ∧ u.ledtrace = s.ledtrace ++ [f] ∧
        u.pls = t.pls)) ∧
  ∀ s : State, s.flag .companionPowerRequest = true →
    (s.flag .buttonHold = true → s.reg = true →
      ∃ t u f g, exec (.svc .buttonHold) s = .next t ∧ t.reg = false ∧
        exec (.svc .companionPowerRequest) t = .next u ∧ u.reg = true ∧
        u.ledtrace = s.ledtrace ++ [f, g] ∧ u.pls = s.pls) ∧
    (s.flag .buttonPress = true → s.reg = false → s.pls.active = false →
      ∃ t u, exec (.svc .buttonPress) s = .next t ∧ t.reg = true ∧
        exec (.svc .companionPowerRequest) t = .next u ∧ u.reg = true ∧ u.pls = ⟨true, s.millis⟩ ∧
        u.fault = s.fault) ∧
    (s.flag .buttonPress = true → s.reg = true → s.pls.active = false →
      ∃ t u, exec (.svc .buttonPress) s = .next t ∧ t.pls = ⟨true, s.millis⟩ ∧
        exec (.svc .companionPowerRequest) t = .next u ∧ .pulseOverlap s.millis ∈ u.fault ∧ u.pls = t.pls)

/-- From 45_controlloop.md R174, R175: a drain, the four SVC in order, each reading `reg` as the one before it left it,
for every row of the table of several flags. The sequential reading is the spec's own decision D8
(notes/assumptions/21.md). -/
def Obligations.DrainFollowsTheTableOfSeveralFlags : Prop :=
  ∀ s : State, s.fault = [] → s.pls.active = false →
    (s.reg = true → s.evf = 0b0011#4 → ∃ t, drain s = .next t ∧ drainedTo s t false 1 ⟨true, s.millis⟩) ∧
    (s.reg = true → s.evf = 0b0110#4 → ∃ t, drain s = .next t ∧ drainedTo s t true 2 s.pls) ∧
    (s.reg = true → s.evf = 0b0101#4 → ∃ t, drain s = .next t ∧
      t.fault = [.pulseOverlap s.millis] ∧ t.evf = 0#4 ∧ t.reg = true ∧ t.pls = ⟨true, s.millis⟩ ∧
      t.ledtrace = s.ledtrace) ∧
    (s.reg = true → s.evf = 0b1010#4 → ∃ t, drain s = .next t ∧ drainedTo s t false 1 s.pls) ∧
    (s.reg = true → s.evf = 0b1100#4 → ∃ t, drain s = .next t ∧ drainedTo s t false 1 ⟨true, s.millis⟩) ∧
    (s.reg = false → s.evf = 0b0101#4 → ∃ t, drain s = .next t ∧ drainedTo s t true 1 ⟨true, s.millis⟩) ∧
    (s.reg = false → s.evf = 0b0011#4 → ∃ t, drain s = .next t ∧ drainedTo s t false 2 s.pls) ∧
    (s.reg = false → s.evf = 0b1111#4 → ∃ t, drain s = .next t ∧ drainedTo s t false 4 s.pls) ∧
    (s.reg = false → s.evf = 0b0010#4 → ∃ t, drain s = .next t ∧ drainedTo s t false 0 s.pls)

/-! ### Interrupt agents -/

/-- R190: TICK adds 1 to the counter modulo 2^32 and changes nothing else. -/
def Obligations.TickAdvancesTheCounter : Prop :=
  ∀ s : State,
    encode .tick = 0xA0000000#32 ∧
    exec .tick s = .next { s with millis := BitVec.ofNat 32 ((s.millis.toNat + 1) % 2 ^ 32) } ∧
    (s.millis = 0xFFFFFFFF#32 → exec .tick s = .next { s with millis := 0#32 })

/-- From 46_async_agents.md R192: EDGE of a companion event sets its flag and changes nothing else. -/
def Obligations.EdgeSetsItsCompanionFlag : Prop :=
  ∀ (e : Event) (s : State), e = .companionPowerRequest ∨ e = .companionShutdownComplete →
    encode (.edge e) = 0xB0000000#32 ||| (e.id.setWidth 32 <<< 26) ∧
    ∃ t, exec (.edge e) s = .next t ∧
      t = { s with evf := s.evf ||| (1#4 <<< e.id.toNat), evtrace := t.evtrace } ∧
      ∀ a, t.readByte a = s.readByte a

/-- The model's choice for the term no word decodes to (notes/assumptions/17.md): EDGE of a button event raises
IllegalOperation with the word 30_encoding.md calls `EDGE 0`, `EDGE 1`, which the decoder refuses. -/
def Obligations.EdgeOfAButtonEventIsIllegal : Prop :=
  ∀ (e : Event) (s : State), e = .buttonPress ∨ e = .buttonHold →
    (∃ r, decode (encode (.edge e)) = .error r) ∧
    exec (.edge e) s = .next { s with
      fault := recorded (.illegalOperation (0xB0000000#32 ||| (e.id.setWidth 32 <<< 26))) s.fault }

/-- From 60_exceptions.md R208: TICK and EDGE commute. -/
def Obligations.TickAndEdgeCommute : Prop :=
  ∀ (e : Event) (s : State), ∃ t u v, exec .tick s = .next t ∧ exec (.edge e) s = .next u ∧
    exec (.edge e) t = .next v ∧ exec .tick u = .next v

/-! ### Who writes what -/

/-- From the table of 10_state.md, section 1: each register and line is written only by the operations named there
(SVC through REGSET and PLSEND), and no operation writes `phase`, the input lines or the agenda. -/
def Obligations.EachRegisterHasItsWriters : Prop :=
  ∀ (i : Instr) (s t : State), exec i s = .next t →
    (t.deb ≠ s.deb → i = .debpoll) ∧
    (t.pls ≠ s.pls → i = .plsend ∨ i = .plpoll ∨ ∃ e, i = .svc e) ∧
    (t.reg ≠ s.reg → (∃ en, i = .regset en) ∨ ∃ e, i = .svc e) ∧
    (t.millis ≠ s.millis → i = .tick) ∧
    (t.evf ≠ s.evf →
      i = .debpoll ∨ ∃ e, i = .evset e ∨ i = .evtake e ∨ i = .svc e ∨ i = .edge e) ∧
    (t.lines.regulatorEnable ≠ s.lines.regulatorEnable ∨ t.lines.fanControl ≠ s.lines.fanControl →
      (∃ en, i = .regset en) ∨ ∃ e, i = .svc e) ∧
    (t.lines.powerPulseOut ≠ s.lines.powerPulseOut → i = .plsend ∨ i = .plpoll ∨ ∃ e, i = .svc e) ∧
    (t.lines.ledData ≠ s.lines.ledData → i = .ledshow ∨ (∃ en, i = .regset en) ∨ ∃ e, i = .svc e) ∧
    (t.ledtrace ≠ s.ledtrace → i = .ledshow ∨ (∃ en, i = .regset en) ∨ ∃ e, i = .svc e) ∧
    t.phase = s.phase ∧ t.inputs = s.inputs ∧ t.agenda = s.agenda

/-! ### Faults -/

/-- From 60_exceptions.md R200, R205: an operation records a fault only as LEDSET with index 3, as PLSEND with a pulse
active, or as SVC of a request with the rails on and a pulse active; the last case is the term no word decodes to
(notes/assumptions/17.md). -/
def Obligations.OperationsFaultOnlyForTheNamedCauses : Prop :=
  ∀ (i : Instr) (s t : State), exec i s = .next t → t.fault ≠ s.fault →
    (∃ c, i = .ledset 3#2 c) ∨
    (i = .plsend ∧ s.pls.active = true) ∨
    (∃ e, i = .svc e ∧ (e = .buttonPress ∨ e = .companionPowerRequest) ∧ s.flag e = true ∧
      s.reg = true ∧ s.pls.active = true) ∨
    ∃ e, i = .edge e ∧ (e = .buttonPress ∨ e = .buttonHold)

/-- From 60_exceptions.md R200: no step removes a recorded fault. -/
def Obligations.RecordedFaultsStay : Prop :=
  ∀ s t : State, step s = .next t → ∀ r ∈ s.fault, r ∈ t.fault

/-- From 60_exceptions.md R204: after a fault a step changes only the counter and the flags (and the model's own
fields: the input levels, the agenda, the event trace). -/
def Obligations.FaultedStepMovesOnlyClockAndFlags : Prop :=
  ∀ s t : State, s.fault ≠ [] → step s = .next t →
    t = { s with
      millis := t.millis
      evf := t.evf
      inputs := t.inputs
      agenda := t.agenda
      evtrace := t.evtrace } ∧
    ∀ e, s.flag e = true → t.flag e = true

/-- From 60_exceptions.md R204 and 93_implementation_defined.md U3: after a fault the main agent has no step, and a
directly issued word of the main loop's context has none (notes/assumptions/5.md). -/
def Obligations.FaultedMainAgentHasNoStep : Prop :=
  ∀ s : State, s.fault ≠ [] →
    (nextTurn s = .main → step s = .fault .mainAgentStopped) ∧
    ∀ w, nextTurn s = .issue w → (∀ i, decode w = .ok i → i ≠ .tick ∧ ∀ e, i ≠ .edge e) →
      step s = .fault .mainAgentStopped

/-! ### Steps -/

/-- A step runs the decoded instruction: a word issued directly is executed at the state with its turn used up; `phase`
stays (30_encoding.md R73; the agenda is the model's own, notes/assumptions/1.md, 2.md). -/
def Obligations.StepRunsTheIssuedWord : Prop :=
  ∀ (s : State) (w : Word) (rest : List Turn) (i : Instr), s.agenda = .issue w :: rest → decode w = .ok i →
    (s.fault = [] ∨ i = .tick ∨ ∃ e, i = .edge e) →
    step s = exec i { s with agenda := rest }

/-- A word placed for the next step is the next step's instruction, at the very state it was placed in
(notes/assumptions/2.md). -/
def Obligations.PlacedWordIsRunNext : Prop :=
  ∀ (s : State) (w : Nat) (i : Instr), w < 2 ^ 32 → decode (BitVec.ofNat 32 w) = .ok i → s.fault = [] →
    step (s.withFetchWord 32 w) = exec i s

/-- An illegal word issued directly raises IllegalOperation in the step (60_exceptions.md R201; the agenda is the
model's own, notes/assumptions/1.md). -/
def Obligations.StepOfAnIllegalWordRaises : Prop :=
  ∀ (s : State) (w : Word) (rest : List Turn), s.agenda = .issue w :: rest → s.fault = [] →
    (∀ r ∈ opcodeTable, w &&& r.mask ≠ r.pattern) →
    step s = .next { s with agenda := rest, fault := [.illegalOperation w] }

/-- The main agent's turn (also when the agenda is empty, notes/assumptions/1.md) executes the operation of the loop
program at `phase`, and advances `phase` modulo 6 exactly if no fault was raised (45_controlloop.md R170, R178). -/
def Obligations.MainTurnRunsTheProgramAtPhase : Prop :=
  ∀ (s : State) (i : Instr), (s.agenda = [] ∨ ∃ rest, s.agenda = .main :: rest) → s.fault = [] →
    [Instr.debpoll, .plpoll, .svc .buttonPress, .svc .buttonHold, .svc .companionPowerRequest,
      .svc .companionShutdownComplete][s.phase.toNat]? = some i →
    ∃ t, exec i { s with agenda := s.agenda.tail } = .next t ∧
      (t.fault = [] → step s = .next { t with phase := BitVec.ofNat 3 ((s.phase.toNat + 1) % 6) }) ∧
      (t.fault ≠ [] → step s = .next t ∧ t.phase = s.phase)

/-- From 45_controlloop.md R179: an unfaulted main agent always has a step. -/
def Obligations.UnfaultedMainAgentHasAStep : Prop :=
  ∀ s : State, s.phaseLegal → s.fault = [] → nextTurn s = .main → ∃ t, step s = .next t

/-- The timer agent's turn is a TICK, whatever faults are recorded (46_async_agents.md R190, 60_exceptions.md R204). -/
def Obligations.TimerTurnIsATick : Prop :=
  ∀ (s : State) (rest : List Turn), s.agenda = .timer :: rest → step s = exec .tick { s with agenda := rest }

/-- The environment's turn sets a line's level; a rising edge of a companion line executes EDGE, a falling edge or a
steady level causes nothing, and PowerButton raises no interrupt (46_async_agents.md R192, 60_exceptions.md R207;
notes/assumptions/3.md, 4.md). -/
def Obligations.DrivenLineRaisesEdgeOnlyWhenRising : Prop :=
  ∀ (s : State) (line : InputLine) (level : Level) (rest : List Turn), s.agenda = .drive line level :: rest →
    let t := { s with agenda := rest, inputs := s.inputs.set line level }
    (line = .powerButton ∨ level = false ∨ s.inputs.level line = true → step s = .next t) ∧
    (line = .companionPowerRequest → s.inputs.level line = false → level = true →
      step s = exec (.edge .companionPowerRequest) t) ∧
    (line = .companionShutdownComplete → s.inputs.level line = false → level = true →
      step s = exec (.edge .companionShutdownComplete) t)

/-- From 10_state.md R26 and 30_encoding.md R73: only the main agent's turn moves `phase`. -/
def Obligations.OnlyTheMainTurnMovesPhase : Prop :=
  ∀ s t : State, step s = .next t → t.phase ≠ s.phase →
    nextTurn s = .main ∧ t.phase.toNat = (s.phase.toNat + 1) % 6 ∧ t.fault = []

/-- Every step keeps the block's invariants: `phase` in 0 to 5, PowerPulseOut = `pls.active`, RegulatorEnable =
FanControl = `reg`, a released button at rest, LedData low, and the memory's canonical form (10_state.md R26, R30,
41_debouncer.md R118, 42_pulse.md R135, 43_led.md R146; the memory's form is the model's, notes/assumptions/8.md; that
the two rail lines agree is so between steps only, notes/assumptions/18.md). -/
def Obligations.StepKeepsTheInvariants : Prop :=
  ∀ s t : State, s.Inv → step s = .next t → t.Inv

/-- The invariants hold after power-on, for both values of `BOOT_SET_STATE`. -/
def Obligations.InvariantsHoldAtPowerOn : Prop :=
  ∀ b : BootSetState, (State.powerOn b).Inv

/-! ### Reset -/

/-- The values the spec decides for reset (70_reset_and_hazards.md, 92_eei_decisions.md D3). -/
def Obligations.ResetLeavesTheDecidedValues : Prop :=
  State.reset.deb = ⟨true, 0#32, .released⟩ ∧ State.reset.pls = ⟨false, 0#32⟩ ∧ State.reset.reg = false ∧
  State.reset.phase = 0#3 ∧ State.reset.millis = 0#32 ∧ State.reset.evf = 0#4 ∧
  (∀ i : LedIndex, State.reset.led i = 0x000000#24) ∧
  State.reset.lines = ⟨false, false, false, false⟩ ∧ State.reset.fault = [] ∧ State.reset.ledtrace = []

/-- The boot parameter (70_reset_and_hazards.md R231): with `none` the loop is entered in the reset state; with `off`
the first step executes `REGSET 0`, after which the buffer holds the off palette, one frame was sent, and all other
state is as after reset. -/
def Obligations.BootParameterSendsTheOffPalette : Prop :=
  State.powerOn .none = State.reset ∧
  ∃ t f, step (State.powerOn .off) = .next t ∧ railsSwitched false State.reset t f ∧
    t.lines = State.reset.lines ∧ t.phase = 0#3
end

