-- ==== Sys2Proof/Laws/Decode.lean ====
section
/-! SUPPORT. The fields of an encoded word, and the event ids. -/

namespace Sys2Proof

@[simp] theorem Event.ofId_id (e : Event) : Event.ofId e.id = e := by cases e <;> rfl

@[simp] theorem Event.id_ofId (n : BitVec 2) : (Event.ofId n).id = n := by
  revert n
  decide

theorem opcField_wordN (opc : BitVec 4) : opcField (wordN opc) = opc := by revert opc; decide

theorem opcField_wordS (opc : BitVec 4) (sel : BitVec 2) : opcField (wordS opc sel) = opc := by
  revert opc sel
  decide

theorem selField_wordS (opc : BitVec 4) (sel : BitVec 2) : selField (wordS opc sel) = sel := by
  revert opc sel
  decide

theorem opcField_wordB (opc : BitVec 4) (en : Bool) : opcField (wordB opc en) = opc := by
  revert opc en
  decide

theorem enField_wordB (opc : BitVec 4) (en : Bool) : enField (wordB opc en) = en := by
  revert opc en
  decide

/-- Which bit of a format C word is which. -/
theorem getLsbD_wordC (opc : BitVec 4) (sel : BitVec 2) (col : LedColor) (n : Nat) :
    (wordC opc sel col).getLsbD n =
      if n < 24 then col.getLsbD n else if n < 26 then false else if n < 28 then sel.getLsbD (n - 26)
      else opc.getLsbD (n - 28) := by
  unfold wordC
  rw [BitVec.getLsbD_append]
  split
  · rfl
  · rw [BitVec.getLsbD_append]
    split
    · have : n < 26 := by omega
      simp [this]
    · have h26 : ¬ n < 26 := by omega
      rw [if_neg h26, BitVec.getLsbD_append]
      split
      · have : n < 28 := by omega
        rw [if_pos this]
        congr 1
      · have : ¬ n < 28 := by omega
        rw [if_neg this]
        congr 1

theorem opcField_wordC (opc : BitVec 4) (sel : BitVec 2) (col : LedColor) : opcField (wordC opc sel col) = opc := by
  apply BitVec.eq_of_getLsbD_eq
  intro n hn
  have h1 : ¬ 28 + n < 24 := by omega
  have h2 : ¬ 28 + n < 26 := by omega
  have h3 : ¬ 28 + n < 28 := by omega
  simp [opcField, getLsbD_wordC, hn, h1, h2]

theorem selField_wordC (opc : BitVec 4) (sel : BitVec 2) (col : LedColor) : selField (wordC opc sel col) = sel := by
  apply BitVec.eq_of_getLsbD_eq
  intro n hn
  have h1 : ¬ 26 + n < 24 := by omega
  have h2 : 26 + n < 28 := by omega
  simp [selField, getLsbD_wordC, hn, h1, h2]

theorem colField_wordC (opc : BitVec 4) (sel : BitVec 2) (col : LedColor) : colField (wordC opc sel col) = col := by
  apply BitVec.eq_of_getLsbD_eq
  intro n hn
  simp [colField, getLsbD_wordC, hn]

end Sys2Proof
end

