-- ==== Sys2Proof/Laws/State.lean ====
section
/-! SUPPORT. One lemma per field per update of the state, true by definition. -/

namespace Sys2Proof
namespace Machine

variable (s : State)

@[simp] theorem State.setDeb_deb (x : Debouncer) : (s.setDeb x).deb = x := rfl
@[simp] theorem State.setDeb_pls (x : Debouncer) : (s.setDeb x).pls = s.pls := rfl
@[simp] theorem State.setDeb_reg (x : Debouncer) : (s.setDeb x).reg = s.reg := rfl
@[simp] theorem State.setDeb_phase (x : Debouncer) : (s.setDeb x).phase = s.phase := rfl
@[simp] theorem State.setDeb_millis (x : Debouncer) : (s.setDeb x).millis = s.millis := rfl
@[simp] theorem State.setDeb_evf (x : Debouncer) : (s.setDeb x).evf = s.evf := rfl
@[simp] theorem State.setDeb_mem (x : Debouncer) : (s.setDeb x).mem = s.mem := rfl
@[simp] theorem State.setDeb_lines (x : Debouncer) : (s.setDeb x).lines = s.lines := rfl
@[simp] theorem State.setDeb_fault (x : Debouncer) : (s.setDeb x).fault = s.fault := rfl
@[simp] theorem State.setDeb_ledtrace (x : Debouncer) : (s.setDeb x).ledtrace = s.ledtrace := rfl
@[simp] theorem State.setDeb_inputs (x : Debouncer) : (s.setDeb x).inputs = s.inputs := rfl
@[simp] theorem State.setDeb_agenda (x : Debouncer) : (s.setDeb x).agenda = s.agenda := rfl
@[simp] theorem State.setDeb_evtrace (x : Debouncer) : (s.setDeb x).evtrace = s.evtrace := rfl

@[simp] theorem State.setPls_deb (x : Pulse) : (s.setPls x).deb = s.deb := rfl
@[simp] theorem State.setPls_pls (x : Pulse) : (s.setPls x).pls = x := rfl
@[simp] theorem State.setPls_reg (x : Pulse) : (s.setPls x).reg = s.reg := rfl
@[simp] theorem State.setPls_phase (x : Pulse) : (s.setPls x).phase = s.phase := rfl
@[simp] theorem State.setPls_millis (x : Pulse) : (s.setPls x).millis = s.millis := rfl
@[simp] theorem State.setPls_evf (x : Pulse) : (s.setPls x).evf = s.evf := rfl
@[simp] theorem State.setPls_mem (x : Pulse) : (s.setPls x).mem = s.mem := rfl
@[simp] theorem State.setPls_lines (x : Pulse) : (s.setPls x).lines = s.lines := rfl
@[simp] theorem State.setPls_fault (x : Pulse) : (s.setPls x).fault = s.fault := rfl
@[simp] theorem State.setPls_ledtrace (x : Pulse) : (s.setPls x).ledtrace = s.ledtrace := rfl
@[simp] theorem State.setPls_inputs (x : Pulse) : (s.setPls x).inputs = s.inputs := rfl
@[simp] theorem State.setPls_agenda (x : Pulse) : (s.setPls x).agenda = s.agenda := rfl
@[simp] theorem State.setPls_evtrace (x : Pulse) : (s.setPls x).evtrace = s.evtrace := rfl

@[simp] theorem State.setReg_deb (x : Bool) : (s.setReg x).deb = s.deb := rfl
@[simp] theorem State.setReg_pls (x : Bool) : (s.setReg x).pls = s.pls := rfl
@[simp] theorem State.setReg_reg (x : Bool) : (s.setReg x).reg = x := rfl
@[simp] theorem State.setReg_phase (x : Bool) : (s.setReg x).phase = s.phase := rfl
@[simp] theorem State.setReg_millis (x : Bool) : (s.setReg x).millis = s.millis := rfl
@[simp] theorem State.setReg_evf (x : Bool) : (s.setReg x).evf = s.evf := rfl
@[simp] theorem State.setReg_mem (x : Bool) : (s.setReg x).mem = s.mem := rfl
@[simp] theorem State.setReg_lines (x : Bool) : (s.setReg x).lines = s.lines := rfl
@[simp] theorem State.setReg_fault (x : Bool) : (s.setReg x).fault = s.fault := rfl
@[simp] theorem State.setReg_ledtrace (x : Bool) : (s.setReg x).ledtrace = s.ledtrace := rfl
@[simp] theorem State.setReg_inputs (x : Bool) : (s.setReg x).inputs = s.inputs := rfl
@[simp] theorem State.setReg_agenda (x : Bool) : (s.setReg x).agenda = s.agenda := rfl
@[simp] theorem State.setReg_evtrace (x : Bool) : (s.setReg x).evtrace = s.evtrace := rfl

@[simp] theorem State.setPhase_deb (x : BitVec 3) : (s.setPhase x).deb = s.deb := rfl
@[simp] theorem State.setPhase_pls (x : BitVec 3) : (s.setPhase x).pls = s.pls := rfl
@[simp] theorem State.setPhase_reg (x : BitVec 3) : (s.setPhase x).reg = s.reg := rfl
@[simp] theorem State.setPhase_phase (x : BitVec 3) : (s.setPhase x).phase = x := rfl
@[simp] theorem State.setPhase_millis (x : BitVec 3) : (s.setPhase x).millis = s.millis := rfl
@[simp] theorem State.setPhase_evf (x : BitVec 3) : (s.setPhase x).evf = s.evf := rfl
@[simp] theorem State.setPhase_mem (x : BitVec 3) : (s.setPhase x).mem = s.mem := rfl
@[simp] theorem State.setPhase_lines (x : BitVec 3) : (s.setPhase x).lines = s.lines := rfl
@[simp] theorem State.setPhase_fault (x : BitVec 3) : (s.setPhase x).fault = s.fault := rfl
@[simp] theorem State.setPhase_ledtrace (x : BitVec 3) : (s.setPhase x).ledtrace = s.ledtrace := rfl
@[simp] theorem State.setPhase_inputs (x : BitVec 3) : (s.setPhase x).inputs = s.inputs := rfl
@[simp] theorem State.setPhase_agenda (x : BitVec 3) : (s.setPhase x).agenda = s.agenda := rfl
@[simp] theorem State.setPhase_evtrace (x : BitVec 3) : (s.setPhase x).evtrace = s.evtrace := rfl

@[simp] theorem State.setMillis_deb (x : Stamp) : (s.setMillis x).deb = s.deb := rfl
@[simp] theorem State.setMillis_pls (x : Stamp) : (s.setMillis x).pls = s.pls := rfl
@[simp] theorem State.setMillis_reg (x : Stamp) : (s.setMillis x).reg = s.reg := rfl
@[simp] theorem State.setMillis_phase (x : Stamp) : (s.setMillis x).phase = s.phase := rfl
@[simp] theorem State.setMillis_millis (x : Stamp) : (s.setMillis x).millis = x := rfl
@[simp] theorem State.setMillis_evf (x : Stamp) : (s.setMillis x).evf = s.evf := rfl
@[simp] theorem State.setMillis_mem (x : Stamp) : (s.setMillis x).mem = s.mem := rfl
@[simp] theorem State.setMillis_lines (x : Stamp) : (s.setMillis x).lines = s.lines := rfl
@[simp] theorem State.setMillis_fault (x : Stamp) : (s.setMillis x).fault = s.fault := rfl
@[simp] theorem State.setMillis_ledtrace (x : Stamp) : (s.setMillis x).ledtrace = s.ledtrace := rfl
@[simp] theorem State.setMillis_inputs (x : Stamp) : (s.setMillis x).inputs = s.inputs := rfl
@[simp] theorem State.setMillis_agenda (x : Stamp) : (s.setMillis x).agenda = s.agenda := rfl
@[simp] theorem State.setMillis_evtrace (x : Stamp) : (s.setMillis x).evtrace = s.evtrace := rfl

@[simp] theorem State.setEvf_deb (x : FlagSet) : (s.setEvf x).deb = s.deb := rfl
@[simp] theorem State.setEvf_pls (x : FlagSet) : (s.setEvf x).pls = s.pls := rfl
@[simp] theorem State.setEvf_reg (x : FlagSet) : (s.setEvf x).reg = s.reg := rfl
@[simp] theorem State.setEvf_phase (x : FlagSet) : (s.setEvf x).phase = s.phase := rfl
@[simp] theorem State.setEvf_millis (x : FlagSet) : (s.setEvf x).millis = s.millis := rfl
@[simp] theorem State.setEvf_evf (x : FlagSet) : (s.setEvf x).evf = x := rfl
@[simp] theorem State.setEvf_mem (x : FlagSet) : (s.setEvf x).mem = s.mem := rfl
@[simp] theorem State.setEvf_lines (x : FlagSet) : (s.setEvf x).lines = s.lines := rfl
@[simp] theorem State.setEvf_fault (x : FlagSet) : (s.setEvf x).fault = s.fault := rfl
@[simp] theorem State.setEvf_ledtrace (x : FlagSet) : (s.setEvf x).ledtrace = s.ledtrace := rfl
@[simp] theorem State.setEvf_inputs (x : FlagSet) : (s.setEvf x).inputs = s.inputs := rfl
@[simp] theorem State.setEvf_agenda (x : FlagSet) : (s.setEvf x).agenda = s.agenda := rfl
@[simp] theorem State.setEvf_evtrace (x : FlagSet) : (s.setEvf x).evtrace = s.evtrace := rfl

@[simp] theorem State.setMem_deb (x : List Host.Cell) : (s.setMem x).deb = s.deb := rfl
@[simp] theorem State.setMem_pls (x : List Host.Cell) : (s.setMem x).pls = s.pls := rfl
@[simp] theorem State.setMem_reg (x : List Host.Cell) : (s.setMem x).reg = s.reg := rfl
@[simp] theorem State.setMem_phase (x : List Host.Cell) : (s.setMem x).phase = s.phase := rfl
@[simp] theorem State.setMem_millis (x : List Host.Cell) : (s.setMem x).millis = s.millis := rfl
@[simp] theorem State.setMem_evf (x : List Host.Cell) : (s.setMem x).evf = s.evf := rfl
@[simp] theorem State.setMem_mem (x : List Host.Cell) : (s.setMem x).mem = x := rfl
@[simp] theorem State.setMem_lines (x : List Host.Cell) : (s.setMem x).lines = s.lines := rfl
@[simp] theorem State.setMem_fault (x : List Host.Cell) : (s.setMem x).fault = s.fault := rfl
@[simp] theorem State.setMem_ledtrace (x : List Host.Cell) : (s.setMem x).ledtrace = s.ledtrace := rfl
@[simp] theorem State.setMem_inputs (x : List Host.Cell) : (s.setMem x).inputs = s.inputs := rfl
@[simp] theorem State.setMem_agenda (x : List Host.Cell) : (s.setMem x).agenda = s.agenda := rfl
@[simp] theorem State.setMem_evtrace (x : List Host.Cell) : (s.setMem x).evtrace = s.evtrace := rfl

@[simp] theorem State.setLines_deb (x : OutputLines) : (s.setLines x).deb = s.deb := rfl
@[simp] theorem State.setLines_pls (x : OutputLines) : (s.setLines x).pls = s.pls := rfl
@[simp] theorem State.setLines_reg (x : OutputLines) : (s.setLines x).reg = s.reg := rfl
@[simp] theorem State.setLines_phase (x : OutputLines) : (s.setLines x).phase = s.phase := rfl
@[simp] theorem State.setLines_millis (x : OutputLines) : (s.setLines x).millis = s.millis := rfl
@[simp] theorem State.setLines_evf (x : OutputLines) : (s.setLines x).evf = s.evf := rfl
@[simp] theorem State.setLines_mem (x : OutputLines) : (s.setLines x).mem = s.mem := rfl
@[simp] theorem State.setLines_lines (x : OutputLines) : (s.setLines x).lines = x := rfl
@[simp] theorem State.setLines_fault (x : OutputLines) : (s.setLines x).fault = s.fault := rfl
@[simp] theorem State.setLines_ledtrace (x : OutputLines) : (s.setLines x).ledtrace = s.ledtrace := rfl
@[simp] theorem State.setLines_inputs (x : OutputLines) : (s.setLines x).inputs = s.inputs := rfl
@[simp] theorem State.setLines_agenda (x : OutputLines) : (s.setLines x).agenda = s.agenda := rfl
@[simp] theorem State.setLines_evtrace (x : OutputLines) : (s.setLines x).evtrace = s.evtrace := rfl

@[simp] theorem State.setFault_deb (x : List FaultRecord) : (s.setFault x).deb = s.deb := rfl
@[simp] theorem State.setFault_pls (x : List FaultRecord) : (s.setFault x).pls = s.pls := rfl
@[simp] theorem State.setFault_reg (x : List FaultRecord) : (s.setFault x).reg = s.reg := rfl
@[simp] theorem State.setFault_phase (x : List FaultRecord) : (s.setFault x).phase = s.phase := rfl
@[simp] theorem State.setFault_millis (x : List FaultRecord) : (s.setFault x).millis = s.millis := rfl
@[simp] theorem State.setFault_evf (x : List FaultRecord) : (s.setFault x).evf = s.evf := rfl
@[simp] theorem State.setFault_mem (x : List FaultRecord) : (s.setFault x).mem = s.mem := rfl
@[simp] theorem State.setFault_lines (x : List FaultRecord) : (s.setFault x).lines = s.lines := rfl
@[simp] theorem State.setFault_fault (x : List FaultRecord) : (s.setFault x).fault = x := rfl
@[simp] theorem State.setFault_ledtrace (x : List FaultRecord) : (s.setFault x).ledtrace = s.ledtrace := rfl
@[simp] theorem State.setFault_inputs (x : List FaultRecord) : (s.setFault x).inputs = s.inputs := rfl
@[simp] theorem State.setFault_agenda (x : List FaultRecord) : (s.setFault x).agenda = s.agenda := rfl
@[simp] theorem State.setFault_evtrace (x : List FaultRecord) : (s.setFault x).evtrace = s.evtrace := rfl

@[simp] theorem State.setLedtrace_deb (x : List Frame) : (s.setLedtrace x).deb = s.deb := rfl
@[simp] theorem State.setLedtrace_pls (x : List Frame) : (s.setLedtrace x).pls = s.pls := rfl
@[simp] theorem State.setLedtrace_reg (x : List Frame) : (s.setLedtrace x).reg = s.reg := rfl
@[simp] theorem State.setLedtrace_phase (x : List Frame) : (s.setLedtrace x).phase = s.phase := rfl
@[simp] theorem State.setLedtrace_millis (x : List Frame) : (s.setLedtrace x).millis = s.millis := rfl
@[simp] theorem State.setLedtrace_evf (x : List Frame) : (s.setLedtrace x).evf = s.evf := rfl
@[simp] theorem State.setLedtrace_mem (x : List Frame) : (s.setLedtrace x).mem = s.mem := rfl
@[simp] theorem State.setLedtrace_lines (x : List Frame) : (s.setLedtrace x).lines = s.lines := rfl
@[simp] theorem State.setLedtrace_fault (x : List Frame) : (s.setLedtrace x).fault = s.fault := rfl
@[simp] theorem State.setLedtrace_ledtrace (x : List Frame) : (s.setLedtrace x).ledtrace = x := rfl
@[simp] theorem State.setLedtrace_inputs (x : List Frame) : (s.setLedtrace x).inputs = s.inputs := rfl
@[simp] theorem State.setLedtrace_agenda (x : List Frame) : (s.setLedtrace x).agenda = s.agenda := rfl
@[simp] theorem State.setLedtrace_evtrace (x : List Frame) : (s.setLedtrace x).evtrace = s.evtrace := rfl

@[simp] theorem State.setInputs_deb (x : InputLines) : (s.setInputs x).deb = s.deb := rfl
@[simp] theorem State.setInputs_pls (x : InputLines) : (s.setInputs x).pls = s.pls := rfl
@[simp] theorem State.setInputs_reg (x : InputLines) : (s.setInputs x).reg = s.reg := rfl
@[simp] theorem State.setInputs_phase (x : InputLines) : (s.setInputs x).phase = s.phase := rfl
@[simp] theorem State.setInputs_millis (x : InputLines) : (s.setInputs x).millis = s.millis := rfl
@[simp] theorem State.setInputs_evf (x : InputLines) : (s.setInputs x).evf = s.evf := rfl
@[simp] theorem State.setInputs_mem (x : InputLines) : (s.setInputs x).mem = s.mem := rfl
@[simp] theorem State.setInputs_lines (x : InputLines) : (s.setInputs x).lines = s.lines := rfl
@[simp] theorem State.setInputs_fault (x : InputLines) : (s.setInputs x).fault = s.fault := rfl
@[simp] theorem State.setInputs_ledtrace (x : InputLines) : (s.setInputs x).ledtrace = s.ledtrace := rfl
@[simp] theorem State.setInputs_inputs (x : InputLines) : (s.setInputs x).inputs = x := rfl
@[simp] theorem State.setInputs_agenda (x : InputLines) : (s.setInputs x).agenda = s.agenda := rfl
@[simp] theorem State.setInputs_evtrace (x : InputLines) : (s.setInputs x).evtrace = s.evtrace := rfl

@[simp] theorem State.setAgenda_deb (x : List Turn) : (s.setAgenda x).deb = s.deb := rfl
@[simp] theorem State.setAgenda_pls (x : List Turn) : (s.setAgenda x).pls = s.pls := rfl
@[simp] theorem State.setAgenda_reg (x : List Turn) : (s.setAgenda x).reg = s.reg := rfl
@[simp] theorem State.setAgenda_phase (x : List Turn) : (s.setAgenda x).phase = s.phase := rfl
@[simp] theorem State.setAgenda_millis (x : List Turn) : (s.setAgenda x).millis = s.millis := rfl
@[simp] theorem State.setAgenda_evf (x : List Turn) : (s.setAgenda x).evf = s.evf := rfl
@[simp] theorem State.setAgenda_mem (x : List Turn) : (s.setAgenda x).mem = s.mem := rfl
@[simp] theorem State.setAgenda_lines (x : List Turn) : (s.setAgenda x).lines = s.lines := rfl
@[simp] theorem State.setAgenda_fault (x : List Turn) : (s.setAgenda x).fault = s.fault := rfl
@[simp] theorem State.setAgenda_ledtrace (x : List Turn) : (s.setAgenda x).ledtrace = s.ledtrace := rfl
@[simp] theorem State.setAgenda_inputs (x : List Turn) : (s.setAgenda x).inputs = s.inputs := rfl
@[simp] theorem State.setAgenda_agenda (x : List Turn) : (s.setAgenda x).agenda = x := rfl
@[simp] theorem State.setAgenda_evtrace (x : List Turn) : (s.setAgenda x).evtrace = s.evtrace := rfl

@[simp] theorem State.setEvtrace_deb (x : List EventObs) : (s.setEvtrace x).deb = s.deb := rfl
@[simp] theorem State.setEvtrace_pls (x : List EventObs) : (s.setEvtrace x).pls = s.pls := rfl
@[simp] theorem State.setEvtrace_reg (x : List EventObs) : (s.setEvtrace x).reg = s.reg := rfl
@[simp] theorem State.setEvtrace_phase (x : List EventObs) : (s.setEvtrace x).phase = s.phase := rfl
@[simp] theorem State.setEvtrace_millis (x : List EventObs) : (s.setEvtrace x).millis = s.millis := rfl
@[simp] theorem State.setEvtrace_evf (x : List EventObs) : (s.setEvtrace x).evf = s.evf := rfl
@[simp] theorem State.setEvtrace_mem (x : List EventObs) : (s.setEvtrace x).mem = s.mem := rfl
@[simp] theorem State.setEvtrace_lines (x : List EventObs) : (s.setEvtrace x).lines = s.lines := rfl
@[simp] theorem State.setEvtrace_fault (x : List EventObs) : (s.setEvtrace x).fault = s.fault := rfl
@[simp] theorem State.setEvtrace_ledtrace (x : List EventObs) : (s.setEvtrace x).ledtrace = s.ledtrace := rfl
@[simp] theorem State.setEvtrace_inputs (x : List EventObs) : (s.setEvtrace x).inputs = s.inputs := rfl
@[simp] theorem State.setEvtrace_agenda (x : List EventObs) : (s.setEvtrace x).agenda = s.agenda := rfl
@[simp] theorem State.setEvtrace_evtrace (x : List EventObs) : (s.setEvtrace x).evtrace = x := rfl

end Machine
end Sys2Proof
end

