-- ==== Sys2Proof/Laws/Memory.lean ====
section
/-! SUPPORT. The LedBuffer's laws: a byte read after a byte written, the canonical form, and the same for entries. -/

namespace Sys2Proof
namespace Machine

/-! ### Bytes -/

theorem Memory.readByte_insertCell_same (a : Nat) (b : BitVec 8) (m : List Host.Cell)
    (h : ∀ c ∈ m, c.1 ≠ a) : Memory.readByte (Memory.insertCell a b m) a = b := by
  induction m with
  | nil => simp [Memory.insertCell, Memory.readByte]
  | cons c rest ih =>
    obtain ⟨k, v⟩ := c
    have hk : k ≠ a := h (k, v) (by simp)
    unfold Memory.insertCell
    split
    · simp [Memory.readByte]
    · simp only [Memory.readByte, if_neg hk]
      exact ih (fun c hc => h c (by simp [hc]))

theorem Memory.readByte_insertCell_other {a a' : Nat} (b : BitVec 8) (m : List Host.Cell) (h : a' ≠ a) :
    Memory.readByte (Memory.insertCell a b m) a' = Memory.readByte m a' := by
  induction m with
  | nil => simp [Memory.insertCell, Memory.readByte, h.symm]
  | cons c rest ih =>
    obtain ⟨k, v⟩ := c
    unfold Memory.insertCell
    split
    · simp [Memory.readByte, h.symm]
    · simp only [Memory.readByte, ih]

theorem Memory.readByte_filter_other {a a' : Nat} (m : List Host.Cell) (h : a' ≠ a) :
    Memory.readByte (m.filter (fun c => decide (c.1 ≠ a))) a' = Memory.readByte m a' := by
  induction m with
  | nil => rfl
  | cons c rest ih =>
    obtain ⟨k, v⟩ := c
    by_cases hk : k = a
    · subst hk
      have : k ≠ a' := fun e => h e.symm
      simp [Memory.readByte, this, ← ih]
    · simp only [ne_eq, hk, not_false_eq_true, decide_true, List.filter_cons_of_pos, Memory.readByte]
      split
      · rfl
      · exact ih

theorem Memory.readByte_of_absent {a : Nat} (m : List Host.Cell) (h : ∀ c ∈ m, c.1 ≠ a) :
    Memory.readByte m a = unlistedByte := by
  induction m with
  | nil => rfl
  | cons c rest ih =>
    obtain ⟨k, v⟩ := c
    have hk : k ≠ a := h (k, v) (by simp)
    simp only [Memory.readByte, if_neg hk]
    exact ih (fun c hc => h c (by simp [hc]))

theorem Memory.filter_absent (a : Nat) (m : List Host.Cell) :
    ∀ c ∈ m.filter (fun c => decide (c.1 ≠ a)), c.1 ≠ a := by
  intro c hc
  simpa using (List.mem_filter.mp hc).2

theorem Memory.mem_insertCell {a : Nat} {b : BitVec 8} {m : List Host.Cell} {c : Host.Cell} :
    c ∈ Memory.insertCell a b m ↔ c = (a, b) ∨ c ∈ m := by
  induction m with
  | nil => simp [Memory.insertCell]
  | cons d rest ih =>
    obtain ⟨k, v⟩ := d
    unfold Memory.insertCell
    split
    · simp
    · simp only [List.mem_cons, ih]
      tauto

theorem Memory.insertCell_rising {a : Nat} {b : BitVec 8} {m : List Host.Cell}
    (hm : m.Pairwise (fun c d => c.1 < d.1)) (ha : ∀ c ∈ m, c.1 ≠ a) :
    (Memory.insertCell a b m).Pairwise (fun c d => c.1 < d.1) := by
  induction m with
  | nil => simp [Memory.insertCell]
  | cons d rest ih =>
    obtain ⟨k, v⟩ := d
    obtain ⟨hk, hrest⟩ := List.pairwise_cons.mp hm
    unfold Memory.insertCell
    split
    · rename_i hlt
      refine List.pairwise_cons.mpr ⟨?_, hm⟩
      intro c hc
      rcases List.mem_cons.mp hc with rfl | hc
      · exact hlt
      · exact Nat.lt_trans hlt (hk c hc)
    · rename_i hge
      have hne : k ≠ a := ha (k, v) (by simp)
      refine List.pairwise_cons.mpr ⟨?_, ih hrest (fun c hc => ha c (by simp [hc]))⟩
      intro c hc
      rcases Memory.mem_insertCell.mp hc with rfl | hc
      · show k < a
        omega
      · exact hk c hc

/-- Everything a byte store does to the form. -/
theorem Memory.writeByte_wf {m : List Host.Cell} {a : Nat} (b : BitVec 8) (hm : Memory.wf m) (ha : a < ledBytes) :
    Memory.wf (Memory.writeByte m a b) := by
  obtain ⟨hs, hc⟩ := hm
  have hs' := hs.sublist (List.filter_sublist (p := fun c => decide (c.1 ≠ a)))
  unfold Memory.writeByte
  simp only
  split
  · exact ⟨hs', fun c h => hc c (List.mem_filter.mp h).1⟩
  · rename_i hb
    refine ⟨Memory.insertCell_rising hs' (Memory.filter_absent a m), ?_⟩
    intro c h
    rcases Memory.mem_insertCell.mp h with rfl | h
    · exact ⟨ha, hb⟩
    · exact hc c (List.mem_filter.mp h).1

/-- A byte read after it was written. -/
theorem Memory.readByte_writeByte_same (m : List Host.Cell) (a : Nat) (b : BitVec 8) :
    Memory.readByte (Memory.writeByte m a b) a = b := by
  unfold Memory.writeByte
  simp only
  split
  · rename_i hb
    rw [hb]
    exact Memory.readByte_of_absent _ (Memory.filter_absent a m)
  · exact Memory.readByte_insertCell_same a b _ (Memory.filter_absent a m)

/-- A byte read after another was written. -/
theorem Memory.readByte_writeByte_other (m : List Host.Cell) {a a' : Nat} (b : BitVec 8) (h : a' ≠ a) :
    Memory.readByte (Memory.writeByte m a b) a' = Memory.readByte m a' := by
  unfold Memory.writeByte
  simp only
  split
  · exact Memory.readByte_filter_other m h
  · rw [Memory.readByte_insertCell_other b _ h, Memory.readByte_filter_other m h]

/-! ### Entries -/

theorem shifted_bytes (a b c : BitVec 8) :
    (((0#Config.colorW <<< 8 ||| a.setWidth Config.colorW) <<< 8 ||| b.setWidth Config.colorW) <<< 8 |||
      c.setWidth Config.colorW) = (a ++ b ++ c : BitVec 24) := by
  apply BitVec.eq_of_getLsbD_eq
  intro n hn
  have hn' : n < 24 := hn
  simp only [BitVec.getLsbD_append, BitVec.getLsbD_or, BitVec.getLsbD_shiftLeft, BitVec.getLsbD_setWidth]
  by_cases h : n < 8
  · simp [h, hn']
  · by_cases h' : n < 16
    · simp [h, hn', show n - 8 < 8 by omega, show n - 8 < 24 by omega, BitVec.getLsbD_of_ge c n (by omega)]
    · simp [h, hn', show ¬ n - 8 < 8 by omega, show n - 8 < 24 by omega, show n - 8 - 8 < 24 by omega,
        BitVec.getLsbD_of_ge c n (by omega), BitVec.getLsbD_of_ge b (n - 8) (by omega)]

/-- An entry is its three bytes, the first the most significant. -/
theorem Memory.readEntry_eq (m : List Host.Cell) (i : LedIndex) :
    Memory.readEntry m i =
      (Memory.readByte m (ledAddr i) ++ Memory.readByte m (ledAddr i + 1) ++ Memory.readByte m (ledAddr i + 2) :
        BitVec 24) :=
  shifted_bytes _ _ _

/-- Writing an entry is writing its three bytes. -/
theorem Memory.writeEntry_eq (m : List Host.Cell) (i : LedIndex) (c : LedColor) :
    Memory.writeEntry m i c =
      Memory.writeByte
        (Memory.writeByte (Memory.writeByte m (ledAddr i) (c.extractLsb' 16 8)) (ledAddr i + 1) (c.extractLsb' 8 8))
        (ledAddr i + 2) (c.extractLsb' 0 8) := rfl

/-- The bytes of an entry, read after the entry was written. -/
theorem Memory.readByte_writeEntry (m : List Host.Cell) (i : LedIndex) (c : LedColor) (a : Nat) :
    Memory.readByte (Memory.writeEntry m i c) a =
      if a = ledAddr i then c.extractLsb' 16 8
      else if a = ledAddr i + 1 then c.extractLsb' 8 8
      else if a = ledAddr i + 2 then c.extractLsb' 0 8
      else Memory.readByte m a := by
  rw [Memory.writeEntry_eq]
  by_cases h2 : a = ledAddr i + 2
  · subst h2
    simp [Memory.readByte_writeByte_same]
  · rw [Memory.readByte_writeByte_other _ _ h2]
    by_cases h1 : a = ledAddr i + 1
    · subst h1
      simp [Memory.readByte_writeByte_same]
    · rw [Memory.readByte_writeByte_other _ _ h1]
      by_cases h0 : a = ledAddr i
      · subst h0
        simp [Memory.readByte_writeByte_same]
      · rw [Memory.readByte_writeByte_other _ _ h0]
        simp [h0, h1, h2]

theorem color_bytes (c : LedColor) :
    (c.extractLsb' 16 8 ++ c.extractLsb' 8 8 ++ c.extractLsb' 0 8 : BitVec 24) = c := by
  apply BitVec.eq_of_getLsbD_eq
  intro n hn
  simp only [BitVec.getLsbD_append, BitVec.getLsbD_extractLsb']
  split <;> rename_i h
  · simp [h]
  · split <;> rename_i h'
    · simp [h', show 8 + (n - 8) = n by omega]
    · simp [show n - 8 - 8 < 8 by omega, show 16 + (n - 8 - 8) = n by omega]

/-- An entry read after it was written. -/
theorem Memory.readEntry_writeEntry_same (m : List Host.Cell) (i : LedIndex) (c : LedColor) :
    Memory.readEntry (Memory.writeEntry m i c) i = c := by
  simp [Memory.readEntry_eq, Memory.readByte_writeEntry, color_bytes]

/-- An entry read after another was written. -/
theorem Memory.readEntry_writeEntry_other (m : List Host.Cell) {i j : LedIndex} (c : LedColor) (h : j ≠ i) :
    Memory.readEntry (Memory.writeEntry m i c) j = Memory.readEntry m j := by
  have hne : j.toNat ≠ i.toNat := fun e => h (BitVec.eq_of_toNat_eq e)
  have far : ∀ k l, k < 3 → l < 3 → ledAddr j + k ≠ ledAddr i + l := by
    intro k l hk hl
    simp only [ledAddr, Config.bytesPerLed]
    omega
  have f00 := far 0 0 (by omega) (by omega)
  have f01 := far 0 1 (by omega) (by omega)
  have f02 := far 0 2 (by omega) (by omega)
  have f10 := far 1 0 (by omega) (by omega)
  have f11 := far 1 1 (by omega) (by omega)
  have f12 := far 1 2 (by omega) (by omega)
  have f20 := far 2 0 (by omega) (by omega)
  have f21 := far 2 1 (by omega) (by omega)
  have f22 := far 2 2 (by omega) (by omega)
  simp only [Nat.add_zero] at f00 f01 f02 f10 f20
  simp only [Memory.readEntry_eq, Memory.readByte_writeEntry, f00, f01, f02, f10, f11, f12, f20, f21, f22, if_false]


theorem Memory.writeEntry_wf {m : List Host.Cell} {i : LedIndex} (c : LedColor) (hm : Memory.wf m)
    (hi : i.toNat < Config.ledCount) : Memory.wf (Memory.writeEntry m i c) := by
  simp only [Config.ledCount] at hi
  have h2 : ledAddr i + 2 < ledBytes := by
    simp only [ledAddr, ledBytes, Config.ledCount, Config.bytesPerLed]
    omega
  rw [Memory.writeEntry_eq]
  exact Memory.writeByte_wf _
    (Memory.writeByte_wf _ (Memory.writeByte_wf _ hm (by omega)) (by omega)) h2

/-! ### The state's LedBuffer -/

@[simp] theorem State.led_setLed_same (s : State) (i : LedIndex) (c : LedColor) : (s.setLed i c).led i = c :=
  Memory.readEntry_writeEntry_same s.mem i c

@[simp] theorem State.led_setLed_other (s : State) {i j : LedIndex} (c : LedColor) (h : j ≠ i) :
    (s.setLed i c).led j = s.led j :=
  Memory.readEntry_writeEntry_other s.mem c h

theorem State.readByte_setLed_other (s : State) (i : LedIndex) (c : LedColor) {a : Nat}
    (h0 : a ≠ ledAddr i) (h1 : a ≠ ledAddr i + 1) (h2 : a ≠ ledAddr i + 2) :
    (s.setLed i c).readByte a = s.readByte a := by
  simp [State.readByte, State.setLed, Memory.readByte_writeEntry, h0, h1, h2]

theorem reset_memory_wf : Memory.wf State.reset.mem := ⟨List.Pairwise.nil, by simp [State.reset]⟩

end Machine
end Sys2Proof
end

