-- ==== Sys2Proof/Laws/Ops.lean ====
section
/-! SUPPORT. One lemma per shared operation that says everything it does. -/

namespace Sys2Proof
namespace Machine

/-! ### Timestamps -/

@[simp] theorem pressThresholdMs_toNat : Config.pressThresholdMs.toNat = 10 := rfl
@[simp] theorem holdThresholdMs_toNat : Config.holdThresholdMs.toNat = 2000 := rfl
@[simp] theorem pulseDurationMs_toNat : Config.pulseDurationMs.toNat = 30 := rfl

theorem stamp_lt (a : Stamp) : a.toNat < 4294967296 := a.isLt

theorem geU_iff (a b : Stamp) : geU a b = true ↔ b.toNat ≤ a.toNat := by simp [geU]

/-- The elapsed time as a number. -/
theorem sub32_toNat (a b : Stamp) : (sub32 a b).toNat = (a.toNat + 4294967296 - b.toNat) % 4294967296 := by
  have ha := stamp_lt a
  have hb := stamp_lt b
  show (a - b).toNat = _
  rw [BitVec.toNat_sub]
  show (4294967296 - b.toNat + a.toNat) % 4294967296 = _
  congr 1
  omega

/-- The time between two samples is at most the sum of the times to and from a third. -/
theorem sub32_triangle (a b c : Stamp) : (sub32 c a).toNat ≤ (sub32 c b).toNat + (sub32 b a).toNat := by
  have ha := stamp_lt a
  have hb := stamp_lt b
  have hc := stamp_lt c
  simp only [sub32_toNat]
  omega

/-- The elapsed time since a stamp, `n` ticks on. -/
theorem sub32_after (a : Stamp) {n : Nat} (h : n < 4294967296) : (sub32 (a + BitVec.ofNat 32 n) a).toNat = n := by
  have : sub32 (a + BitVec.ofNat 32 n) a = BitVec.ofNat 32 n := by
    show a + BitVec.ofNat 32 n - a = _
    rw [BitVec.add_comm]
    exact BitVec.add_sub_cancel _ _
  rw [this]
  exact Nat.mod_eq_of_lt h

/-- One tick more. -/
theorem add32_one (a : Stamp) : add32 a 1#Config.timeW = BitVec.ofNat 32 ((a.toNat + 1) % 4294967296) := by
  apply BitVec.eq_of_toNat_eq
  show (a + 1#32).toNat = _
  rw [BitVec.toNat_add, BitVec.toNat_ofNat]
  show (a.toNat + 1) % 4294967296 = (a.toNat + 1) % 4294967296 % 4294967296
  rw [Nat.mod_mod]

/-! ### Event flags -/

theorem eventMask_buttonPress : eventMask .buttonPress = 0b0001#4 := rfl
theorem eventMask_buttonHold : eventMask .buttonHold = 0b0010#4 := rfl
theorem eventMask_companionPowerRequest : eventMask .companionPowerRequest = 0b0100#4 := rfl
theorem eventMask_companionShutdownComplete : eventMask .companionShutdownComplete = 0b1000#4 := rfl

theorem evSet_eq (e : Event) (s : State) :
    evSet e s = { s with evf := s.evf ||| eventMask e, evtrace := s.evtrace ++ [.emitted e] } := rfl

theorem evTake_fst (e : Event) (s : State) : (evTake e s).1 = s.flag e := by
  unfold evTake
  cases h : s.flag e <;> simp

theorem evTake_snd (e : Event) (s : State) :
    (evTake e s).2 =
      { s with
        evf := s.evf &&& ~~~ eventMask e
        evtrace := if s.flag e then s.evtrace ++ [.taken e] else s.evtrace } := by
  unfold evTake
  cases h : s.flag e <;> simp [State.setEvf, State.observe, State.setEvtrace]

/-- A flag reads as a bit of its mask. -/
theorem flag_after_set : ∀ (e e' : Event) (f : BitVec 4),
    (f ||| eventMask e).getLsbD e'.id.toNat = (f.getLsbD e'.id.toNat || decide (e' = e)) := by
  intro e e'
  cases e <;> cases e' <;> decide

theorem flag_after_clear : ∀ (e e' : Event) (f : BitVec 4),
    (f &&& ~~~ eventMask e).getLsbD e'.id.toNat = (f.getLsbD e'.id.toNat && !decide (e' = e)) := by
  intro e e'
  cases e <;> cases e' <;> decide

@[simp] theorem evSet_flag (e e' : Event) (s : State) : (evSet e s).flag e' = (s.flag e' || decide (e' = e)) :=
  flag_after_set e e' s.evf

@[simp] theorem evTake_flag (e e' : Event) (s : State) :
    ((evTake e s).2).flag e' = (s.flag e' && !decide (e' = e)) := by
  rw [evTake_snd]
  exact flag_after_clear e e' s.evf

/-- Clearing a flag that is clear changes nothing. -/
theorem clear_of_clear : ∀ (e : Event) (f : BitVec 4),
    f.getLsbD e.id.toNat = false → f &&& ~~~ eventMask e = f := by
  intro e
  cases e <;> decide

/-! ### Faults -/

theorem raise_eq (r : FaultRecord) (s : State) :
    raise r s = { s with fault := if r ∈ s.fault then s.fault else s.fault ++ [r] } := by
  unfold raise
  split <;> rfl

theorem raise_fault_ne_nil (r : FaultRecord) (s : State) : (raise r s).fault ≠ [] := by
  rw [raise_eq]
  simp only
  split
  · rename_i h
    exact List.ne_nil_of_mem h
  · simp

@[simp] theorem State.unfaulted_iff (s : State) : s.unfaulted = true ↔ s.fault = [] := List.isEmpty_iff

/-! ### Debouncer -/

@[simp] theorem noteLevel_lastLevel (d : Debouncer) (level : Level) (now : Stamp) :
    (noteLevel d level now).lastLevel = level := by
  unfold noteLevel
  split
  · rfl
  · rename_i h
    simpa using Eq.symm (Decidable.not_not.mp h)

/-- Everything step 2 does. -/
theorem advancePress_cases (d : Debouncer) (now : Stamp) :
    advancePress d now = (d, none) ∨
    (d.lastLevel = false ∧ d.state = .released ∧ geU (sub32 now d.ltt) Config.pressThresholdMs = true ∧
      advancePress d now = ({ d with state := .pressed }, some .buttonPress)) ∨
    (d.lastLevel = false ∧ d.state = .pressed ∧ geU (sub32 now d.ltt) Config.holdThresholdMs = true ∧
      advancePress d now = ({ d with state := .held }, some .buttonHold)) := by
  obtain ⟨l, t, st⟩ := d
  unfold advancePress
  cases l
  · cases st <;> simp only [ButtonState.below, ButtonState.code, if_true] <;>
      cases hp : geU (sub32 now t) Config.pressThresholdMs <;>
      cases hh : geU (sub32 now t) Config.holdThresholdMs <;> simp
    · exfalso
      exact of_decide_eq_false hp (Nat.le_trans (by decide) (of_decide_eq_true hh))
  · simp

/-- The event of a poll is none or one of the two button events. -/
theorem debounce_event_cases (d : Debouncer) (level : Level) (now : Stamp) :
    (debounce d level now).2 = none ∨ (debounce d level now).2 = some .buttonPress ∨
      (debounce d level now).2 = some .buttonHold := by
  rcases advancePress_cases (noteLevel d level now) now with h | ⟨_, _, _, h⟩ | ⟨_, _, _, h⟩ <;>
    simp [debounce, h]

/-- After a poll that samples the released level the state is Released, if it was so before. -/
theorem debounce_releasedRests (d : Debouncer) (level : Level) (now : Stamp)
    (h : d.lastLevel = true → d.state = .released) :
    (debounce d level now).1.lastLevel = true → (debounce d level now).1.state = .released := by
  have hn : (noteLevel d level now).lastLevel = true → (noteLevel d level now).state = .released := by
    unfold noteLevel
    split
    · intro _
      rfl
    · exact h
  rcases advancePress_cases (noteLevel d level now) now with e | ⟨hl, _, _, e⟩ | ⟨hl, _, _, e⟩
  · simpa [debounce, e] using hn
  · intro hc
    simp only [debounce, e] at hc
    rw [hc] at hl
    exact absurd hl (by decide)
  · intro hc
    simp only [debounce, e] at hc
    rw [hc] at hl
    exact absurd hl (by decide)

/-! ### Pulse -/

theorem plSend_active {s : State} (h : s.pls.active = true) : plSend s = raise (.pulseOverlap s.millis) s := by
  simp [plSend, h, sampleNow]

theorem plSend_inactive {s : State} (h : s.pls.active = false) :
    plSend s =
      { s with
        lines := { s.lines with powerPulseOut := true }
        pls := ⟨true, s.millis⟩ } := by
  simp [plSend, h, sampleNow, drivePulse, State.setLines, State.setPls]

theorem plPoll_done {s : State} (h : pulseDone s.pls s.millis = true) :
    plPoll s =
      { s with
        lines := { s.lines with powerPulseOut := false }
        pls := { s.pls with active := false } } := by
  simp [plPoll, h, sampleNow, drivePulse, State.setLines, State.setPls]

theorem plPoll_not_done {s : State} (h : pulseDone s.pls s.millis = false) : plPoll s = s := by
  simp [plPoll, h, sampleNow]

/-! ### LEDs -/

@[simp] theorem lastLevelOf_frameOf (before : Level) (bits : List Bool) : lastLevelOf before (frameOf bits) = false := by
  simp [lastLevelOf, frameOf, latchSegment]

theorem ledShow_eq (s : State) :
    ledShow s =
      { s with
        lines := { s.lines with ledData := false }
        ledtrace := s.ledtrace ++ [frameOf (frameBits s)] } := by
  simp [ledShow, State.setLines, State.setLedtrace]

theorem ledSet_inRange {i : LedIndex} (h : i.toNat < Config.ledCount) (c : LedColor) (s : State) :
    ledSet i c s = s.setLed i c := by
  simp [ledSet, ledIndexInRange, h]

theorem ledSet_outOfRange {i : LedIndex} (h : ¬ i.toNat < Config.ledCount) (c : LedColor) (s : State) :
    ledSet i c s = raise (.ledIndexOutOfRange i) s := by
  simp [ledSet, ledIndexInRange, h]

/-! ### Regulator -/

/-- The memory REGSET leaves. -/
theorem writePalette_eq (en : Bool) (s : State) :
    writePalette en s =
      { s with
        mem := Memory.writeEntry (Memory.writeEntry (Memory.writeEntry s.mem 0#2 (powerColor en)) 1#2 (discColor en))
          2#2 (discColor en) } := rfl

theorem regSet_eq (en : Bool) (s : State) :
    regSet en s =
      { s with
        lines := { s.lines with regulatorEnable := en, fanControl := en, ledData := false }
        mem := (writePalette en s).mem
        ledtrace := s.ledtrace ++ [frameOf (frameBits (writePalette en s))]
        reg := en } := by
  simp only [regSet, ledShow_eq]
  rfl

theorem writePalette_led0 (en : Bool) (s : State) : (writePalette en s).led 0#2 = powerColor en := by
  rw [writePalette, State.led_setLed_other _ _ (by decide), State.led_setLed_other _ _ (by decide),
    State.led_setLed_same]

theorem writePalette_led1 (en : Bool) (s : State) : (writePalette en s).led 1#2 = discColor en := by
  rw [writePalette, State.led_setLed_other _ _ (by decide), State.led_setLed_same]

theorem writePalette_led2 (en : Bool) (s : State) : (writePalette en s).led 2#2 = discColor en := by
  rw [writePalette, State.led_setLed_same]

theorem writePalette_readByte_other (en : Bool) (s : State) {a : Nat} (h : 9 ≤ a) :
    (writePalette en s).readByte a = s.readByte a := by
  have far : ∀ i : LedIndex, i.toNat < 3 → ∀ k, k < 3 → a ≠ ledAddr i + k := by
    intro i hi k hk
    simp only [ledAddr, Config.bytesPerLed]
    omega
  have f0 := far 0#2 (by decide)
  have f1 := far 1#2 (by decide)
  have f2 := far 2#2 (by decide)
  rw [writePalette, State.readByte_setLed_other _ _ _ (f2 0 (by omega)) (f2 1 (by omega)) (f2 2 (by omega)),
    State.readByte_setLed_other _ _ _ (f1 0 (by omega)) (f1 1 (by omega)) (f1 2 (by omega)),
    State.readByte_setLed_other _ _ _ (f0 0 (by omega)) (f0 1 (by omega)) (f0 2 (by omega))]

theorem writePalette_wf (en : Bool) {s : State} (h : Memory.wf s.mem) : Memory.wf (writePalette en s).mem := by
  rw [writePalette_eq]
  exact Memory.writeEntry_wf _ (Memory.writeEntry_wf _ (Memory.writeEntry_wf _ h (by decide)) (by decide)) (by decide)

/-! ### Control loop -/

/-- Everything SVC does. -/
theorem service_cases (e : Event) (s : State) :
    (s.flag e = false ∧ service e s = (evTake e s).2) ∨
    (s.flag e = true ∧ service e s = applyAction (policy e s.reg) (evTake e s).2) := by
  have hreg : (evTake e s).2.reg = s.reg := by rw [evTake_snd]
  unfold service
  simp only [evTake_fst, hreg]
  cases h : s.flag e
  · exact .inl ⟨rfl, by simp⟩
  · exact .inr ⟨rfl, by simp⟩

@[simp] theorem nextPhase_lt (p : BitVec 3) : (nextPhase p).toNat < 6 := by
  revert p
  decide

end Machine
end Sys2Proof
end

