-- ==== Sys2Proof/Laws/PerInstr.lean ====
section
/-! SUPPORT. The family of statements made per constructor of `Instr`: the word of a well-formed operation is a word
of its row of the opcode map (30_encoding.md R80). -/

namespace Sys2Proof
namespace Laws
namespace RowWord

/-- The operation's word satisfies its row's mask and match, and its row is in the map. -/
def Statement (i : Instr) : Prop := i.wellFormed = true → i.row.holds (encode i) = true ∧ i.row ∈ opcodeTable

theorem evset (e : Event) : Statement (.evset e) := by cases e <;> unfold Statement <;> decide
theorem evtake (e : Event) : Statement (.evtake e) := by cases e <;> unfold Statement <;> decide
theorem debpoll : Statement .debpoll := by unfold Statement; decide
theorem plsend : Statement .plsend := by unfold Statement; decide
theorem plpoll : Statement .plpoll := by unfold Statement; decide

theorem ledset (i : LedIndex) (c : LedColor) : Statement (.ledset i c) := by
  intro _
  refine ⟨?_, show rowLedset ∈ opcodeTable by decide⟩
  simp only [Instr.row, OpRow.holds, beq_iff_eq, encode]
  apply BitVec.eq_of_getLsbD_eq
  intro n hn
  rw [BitVec.getLsbD_and, getLsbD_wordC]
  have hcase : ∀ m, m < 32 → rowLedset.mask.getLsbD m = (decide (24 ≤ m) && !(decide (26 ≤ m) && decide (m < 28))) ∧
      rowLedset.pattern.getLsbD m = (decide (28 ≤ m) && (0x6#4).getLsbD (m - 28)) := by decide
  obtain ⟨h1, h2⟩ := hcase n hn
  rw [h1, h2]
  split
  · rename_i h
    have a : ¬ 24 ≤ n := by omega
    have b : ¬ 28 ≤ n := by omega
    simp [a, b]
  · split
    · have b : ¬ 28 ≤ n := by omega
      simp [b]
    · split
      · rename_i h
        have a : 26 ≤ n := by omega
        have b : ¬ 28 ≤ n := by omega
        simp [a, b, h]
      · rename_i h
        have a : 24 ≤ n := by omega
        have b : 28 ≤ n := by omega
        simp [a, b, h]

theorem ledshow : Statement .ledshow := by unfold Statement; decide
theorem regset (en : Bool) : Statement (.regset en) := by cases en <;> unfold Statement <;> decide
theorem svc (e : Event) : Statement (.svc e) := by cases e <;> unfold Statement <;> decide
theorem tick : Statement .tick := by unfold Statement; decide
theorem edge (e : Event) : Statement (.edge e) := by cases e <;> unfold Statement <;> decide

end RowWord
end Laws
end Sys2Proof
end

