-- ==== Sys2Proof/Laws/Step.lean ====
section
/-! SUPPORT. What an operation and a step can do, said once. -/

namespace Sys2Proof
namespace Machine

/-- The state an operation leaves. -/
def effect (i : Instr) (s : State) : State :=
  match i with
  | .evset e => evSet e s
  | .evtake e => (evTake e s).2
  | .debpoll =>
    emitIfAny (debounce s.deb s.inputs.powerButton s.millis).2
      (s.setDeb (debounce s.deb s.inputs.powerButton s.millis).1)
  | .plsend => plSend s
  | .plpoll => plPoll s
  | .ledset i c => ledSet i c s
  | .ledshow => ledShow s
  | .regset en => regSet en s
  | .svc e => service e s
  | .tick => tick s
  | .edge e => edge e s

/-- No operation stops the machine or is refused. -/
theorem exec_eq_effect (i : Instr) (s : State) : exec i s = .next (effect i s) := by cases i <;> rfl

theorem exec_next_iff (i : Instr) (s t : State) : exec i s = .next t ↔ t = effect i s := by
  rw [exec_eq_effect]
  constructor
  · intro h
    injection h with h
    exact h.symm
  · rintro rfl
    rfl

/-- Running a word: it is an operation, or it raises IllegalOperation. -/
theorem runWord_cases (w : Word) (s : State) :
    (∃ i, decode w = .ok i ∧ runWord w s = .next (effect i s)) ∨
    (∃ r, decode w = .error r ∧ runWord w s = .next (raise (.illegalOperation r.word) s)) := by
  unfold runWord
  cases h : decode w with
  | ok i => exact .inl ⟨i, rfl, exec_eq_effect i s⟩
  | error r => exact .inr ⟨r, rfl, rfl⟩

/-- The operation at each phase. -/
theorem decode_programWord {p : BitVec 3} {w : Word} (h : programWord p = some w) :
    p.toNat < 6 ∧ ∃ i, decode w = .ok i := by
  have eight : ∀ q : BitVec 3,
      q = 0#3 ∨ q = 1#3 ∨ q = 2#3 ∨ q = 3#3 ∨ q = 4#3 ∨ q = 5#3 ∨ q = 6#3 ∨ q = 7#3 := by decide
  rcases eight p with rfl | rfl | rfl | rfl | rfl | rfl | rfl | rfl <;> cases h
  · exact ⟨by decide, .debpoll, rfl⟩
  · exact ⟨by decide, .plpoll, rfl⟩
  · exact ⟨by decide, .svc .buttonPress, rfl⟩
  · exact ⟨by decide, .svc .buttonHold, rfl⟩
  · exact ⟨by decide, .svc .companionPowerRequest, rfl⟩
  · exact ⟨by decide, .svc .companionShutdownComplete, rfl⟩

/-- Everything a step that goes on can have done. -/
theorem step_cases {s t : State} (h : step s = .next t) :
    (∃ w i, nextTurn s = .main ∧ s.fault = [] ∧ programWord s.phase = some w ∧ decode w = .ok i ∧
      t = advancePhase (effect i (popTurn s))) ∨
    (nextTurn s = .timer ∧ t = tick (popTurn s)) ∨
    (∃ line level, nextTurn s = .drive line level ∧
      (t = (popTurn s).setInputs ((popTurn s).inputs.set line level) ∨
        ∃ e, line.edgeEvent = some e ∧ (popTurn s).inputs.level line = false ∧ level = true ∧
          t = effect (.edge e) ((popTurn s).setInputs ((popTurn s).inputs.set line level)))) ∨
    (∃ w i, nextTurn s = .issue w ∧ decode w = .ok i ∧ (s.fault = [] ∨ inInterruptContext i = true) ∧
      t = effect i (popTurn s)) ∨
    (∃ w r, nextTurn s = .issue w ∧ decode w = .error r ∧ s.fault = [] ∧
      t = raise (.illegalOperation r.word) (popTurn s)) := by
  have hf : (popTurn s).unfaulted = true ↔ s.fault = [] := by simp [popTurn]
  have hp : (popTurn s).phase = s.phase := rfl
  unfold step runTurn at h
  cases ht : nextTurn s with
  | main =>
    simp only [ht, mainStep, hf, hp] at h
    by_cases hu : s.fault = []
    · rw [if_pos hu] at h
      cases hw : programWord s.phase with
      | none => simp [hw] at h
      | some w =>
        rcases runWord_cases w (popTurn s) with ⟨i, hd, hr⟩ | ⟨r, hd, _⟩
        · simp only [hw, hr, Host.Outcome.next.injEq] at h
          exact .inl ⟨w, i, rfl, hu, rfl, hd, h.symm⟩
        · obtain ⟨_, i, hi⟩ := decode_programWord hw
          rw [hd] at hi
          cases hi
    · rw [if_neg hu] at h
      cases h
  | timer =>
    simp only [ht] at h
    have : timerStep (popTurn s) = .next (tick (popTurn s)) := rfl
    rw [this] at h
    injection h with h
    exact .inr (.inl ⟨rfl, h.symm⟩)
  | drive line level =>
    simp only [ht, driveStep] at h
    refine .inr (.inr (.inl ⟨line, level, rfl, ?_⟩))
    cases he : line.edgeEvent with
    | none =>
      simp only [he, Host.Outcome.next.injEq] at h
      exact .inl h.symm
    | some e =>
      simp only [he] at h
      by_cases hr : (!(popTurn s).inputs.level line && level) = true
      · rw [if_pos hr] at h
        have hd : decode (encode (.edge e)) = .ok (.edge e) := by
          cases line <;> cases he <;> rfl
        simp only [runWord, hd, exec_eq_effect, Host.Outcome.next.injEq] at h
        have hb : (popTurn s).inputs.level line = false ∧ level = true := by simpa using hr
        exact .inr ⟨e, rfl, hb.1, hb.2, h.symm⟩
      · rw [if_neg hr] at h
        injection h with h
        exact .inl h.symm
  | issue w =>
    simp only [ht, issueStep] at h
    by_cases hu : ((popTurn s).unfaulted || isInterruptWord w) = true
    · rw [if_pos hu] at h
      rcases runWord_cases w (popTurn s) with ⟨i, hd, hr⟩ | ⟨r, hd, hr⟩
      · rw [hr] at h
        injection h with h
        refine .inr (.inr (.inr (.inl ⟨w, i, rfl, hd, ?_, h.symm⟩)))
        simpa [isInterruptWord, hd, popTurn] using hu
      · rw [hr] at h
        injection h with h
        refine .inr (.inr (.inr (.inr ⟨w, r, rfl, hd, ?_, h.symm⟩)))
        simpa [isInterruptWord, hd, popTurn] using hu
    · rw [if_neg hu] at h
      cases h

end Machine
end Sys2Proof
end

