-- ==== Sys2Proof/Machine/Assembler.lean ====
section
/-! DEFINITION. The textual form of an operation and the pseudo-operations (30_encoding.md R83, R84). -/

namespace Sys2Proof
namespace Machine

/-- A hexadecimal digit. -/
def hexDigit (d : Nat) : Char := if d < 10 then Char.ofNat (48 + d) else Char.ofNat (55 + d)

/-- A colour as a 6-digit literal. -/
def colorText (c : LedColor) : String :=
  "0x" ++ String.ofList
    ([20, 16, 12, 8, 4, 0].map (fun k => hexDigit (c.extractLsb' k 4).toNat))

/-- An event's name (R83). -/
def eventName : Event → String
  | .buttonPress => "ButtonPress"
  | .buttonHold => "ButtonHold"
  | .companionPowerRequest => "CompanionPowerRequest"
  | .companionShutdownComplete => "CompanionShutdownComplete"

/-- A bit as 0 or 1. -/
def bitText (b : Bool) : String := if b then "1" else "0"

/-- The textual form: mnemonic, then operands, an event by its id (R83). -/
def instrText : Instr → String
  | .evset e => "EVSET " ++ toString e.id.toNat
  | .evtake e => "EVTAKE " ++ toString e.id.toNat
  | .debpoll => "DEBPOLL"
  | .plsend => "PLSEND"
  | .plpoll => "PLPOLL"
  | .ledset i c => "LEDSET " ++ toString i.toNat ++ ", " ++ colorText c
  | .ledshow => "LEDSHOW"
  | .regset en => "REGSET " ++ bitText en
  | .svc e => "SVC " ++ toString e.id.toNat
  | .tick => "TICK"
  | .edge e => "EDGE " ++ toString e.id.toNat

/-- The pseudo-operations that have an expansion; `BTN b` is the environment's `Turn.drive` (R84). -/
inductive Pseudo where
  | loopiter
  | ticks (n : Nat)
  | palette (en : Bool)
  | btn (b : Level)
  deriving DecidableEq, Repr

/-- The expansion into operations; `BTN` is none (R84). -/
def Pseudo.operations : Pseudo → List Instr
  | .loopiter =>
    [.debpoll, .plpoll, .svc .buttonPress, .svc .buttonHold, .svc .companionPowerRequest,
      .svc .companionShutdownComplete]
  | .ticks n => List.replicate n .tick
  | .palette true =>
    [.ledset 0#2 Config.colorOnPower, .ledset 1#2 Config.colorOnDisc, .ledset 2#2 Config.colorOnDisc]
  | .palette false =>
    [.ledset 0#2 Config.colorOffPower, .ledset 1#2 Config.colorOffDisc, .ledset 2#2 Config.colorOffDisc]
  | .btn _ => []

/-- The turns that carry a pseudo-operation out: an iteration by the main agent, ticks by the timer agent
(95_test_vectors.md part 3). -/
def Pseudo.turns : Pseudo → List Turn
  | .loopiter => List.replicate 6 .main
  | .ticks n => List.replicate n .timer
  | .palette en => (Pseudo.palette en).operations.map (fun i => .issue (encode i))
  | .btn b => [.drive .powerButton b]

end Machine
end Sys2Proof
end

