-- ==== Sys2Proof/Tests/Slice0.lean ====
section
/-! SUPPORT. The model's own tests: words written out from the spec's encodings, one small step per operation against
the spec's test vectors, the well-formedness check, and a witness for the hypotheses of each statement. -/

namespace Sys2Proof
namespace Tests

open Sys2Proof.Machine

/-! ### Helpers -/

/-- The state an operation leaves. -/
def after (i : Instr) (s : State) : State :=
  match exec i s with
  | .next t => t
  | .fault _ => s
  | .refused _ => s

/-- The state a step leaves. -/
def stepped (s : State) : State :=
  match step s with
  | .next t => t
  | .fault _ => s
  | .refused _ => s

/-- Reset with the rails on (the start of 95_test_vectors.md P4, P5, but for the buffer). -/
def railsOn : State := { State.reset with reg := true, lines := ⟨true, true, false, false⟩ }

/-- Reset with a debouncer, a sampled level and a time. -/
def button (d : Debouncer) (level : Level) (now : Stamp) : State :=
  { State.reset with deb := d, millis := now, inputs := ⟨level, false, false⟩ }

/-- Reset with a pulse and a time. -/
def pulsing (start now : Stamp) : State :=
  { State.reset with pls := ⟨true, start⟩, millis := now, lines := ⟨false, false, true, false⟩ }

/-- The state of 95_test_vectors.md V69: a request is set, the rails are on, a pulse is active. -/
def overlapping : State :=
  { State.reset with
    evf := 0b0100#4, reg := true, pls := ⟨true, 190#32⟩, millis := 200#32, lines := ⟨true, true, true, false⟩ }

/-- Reset after a recorded fault, with two flags set. -/
def faulted : State := { State.reset with fault := [.pulseOverlap 512#32], evf := 0b0011#4, phase := 4#3 }

/-! ### Well-formedness -/

theorem test_edge_of_press_ill_formed : (Instr.edge .buttonPress).wellFormed = false := by decide
theorem test_edge_of_hold_ill_formed : (Instr.edge .buttonHold).wellFormed = false := by decide
theorem test_edge_of_request_well_formed : (Instr.edge .companionPowerRequest).wellFormed = true := by decide

/-! ### Decoding: the words of 30_encoding.md R80, bit by bit -/

theorem test_decode_evset : decode 0b00011000000000000000000000000000#32 = .ok (.evset .companionPowerRequest) := rfl
theorem test_decode_evtake : decode 0b00101100000000000000000000000000#32 = .ok (.evtake .companionShutdownComplete) :=
  rfl
theorem test_decode_debpoll : decode 0b00110000000000000000000000000000#32 = .ok .debpoll := rfl
theorem test_decode_plsend : decode 0b01000000000000000000000000000000#32 = .ok .plsend := rfl
theorem test_decode_plpoll : decode 0b01010000000000000000000000000000#32 = .ok .plpoll := rfl
theorem test_decode_ledset : decode 0b01101000000100100011010001010110#32 = .ok (.ledset 2#2 0x123456#24) := rfl
theorem test_decode_ledset_three : decode 0b01101100111111111111111111111111#32 = .ok (.ledset 3#2 0xFFFFFF#24) := rfl
theorem test_decode_ledshow : decode 0b01110000000000000000000000000000#32 = .ok .ledshow := rfl
theorem test_decode_regset : decode 0b10000001000000000000000000000000#32 = .ok (.regset true) := rfl
theorem test_decode_svc : decode 0b10010100000000000000000000000000#32 = .ok (.svc .buttonHold) := rfl
theorem test_decode_tick : decode 0b10100000000000000000000000000000#32 = .ok .tick := rfl
theorem test_decode_edge : decode 0b10111000000000000000000000000000#32 = .ok (.edge .companionPowerRequest) := rfl
theorem test_decode_edge_three :
    decode 0b10111100000000000000000000000000#32 = .ok (.edge .companionShutdownComplete) := rfl

/-- 95_test_vectors.md V90, V92, V94, V96 to V99, V101, V103. -/
theorem test_decode_refuses :
    [0x00000000, 0x30000001, 0x1A000000, 0x63000000, 0x82000000, 0x81000001, 0xB0000000, 0xB4000000, 0xC0000000,
      0xFFFFFFFF, 0x78000000].map (decodeTableWord 32) = List.replicate 11 none := rfl

/-- 30_encoding.md R83. -/
theorem test_text : instrText (.ledset 1#2 0x00FFFF#24) = "LEDSET 1, 0x00FFFF" := by decide

/-- 45_controlloop.md R170: the program is the six operations of `LOOPITER` (30_encoding.md R84). -/
theorem test_program : (loopProgram.map decode).map Except.toOption = Pseudo.loopiter.operations.map some := rfl

/-- 00_scope.md R8. -/
theorem test_parameters :
    [Config.timeW, Config.tickMs, Config.pressThresholdMs.toNat, Config.holdThresholdMs.toNat,
      Config.pulseDurationMs.toNat, Config.ledCount, Config.bytesPerLed, Config.colorW, Config.nEvents, Config.t0hNs,
      Config.t0lNs, Config.t1hNs, Config.t1lNs, Config.tLatchNs, Config.colorOnPower.toNat, Config.colorOnDisc.toNat,
      Config.colorOffPower.toNat, Config.colorOffDisc.toNat] =
    [32, 1, 10, 2000, 30, 3, 3, 24, 4, 300, 900, 900, 300, 50000, 0x002000, 0x00FFFF, 0x200000, 0] := rfl

/-! ### One operation -/

/-- V2 and V3. -/
theorem test_evset : (after (.evset .companionPowerRequest) { State.reset with evf := 0b0001#4 }).evf = 0b0101#4 := rfl
theorem test_evset_coalesces :
    (after (.evset .companionPowerRequest) { State.reset with evf := 0b0101#4 }).evf = 0b0101#4 := rfl

/-- V4 and V5. -/
theorem test_evtake : evTake .companionPowerRequest { State.reset with evf := 0b0101#4 } =
    (true, { State.reset with evf := 0b0001#4, evtrace := [.taken .companionPowerRequest] }) := by decide
theorem test_evtake_clear : evTake .companionPowerRequest { State.reset with evf := 0b0001#4 } =
    (false, { State.reset with evf := 0b0001#4 }) := by decide

/-- V18: across the rollover. -/
theorem test_debpoll_press :
    ((after .debpoll (button ⟨false, 0xFFFFFFFA#32, .released⟩ false 4#32)).deb,
      (after .debpoll (button ⟨false, 0xFFFFFFFA#32, .released⟩ false 4#32)).evf) =
    (⟨false, 0xFFFFFFFA#32, .pressed⟩, 0b0001#4) := by decide

/-- V16. -/
theorem test_debpoll_hold :
    ((after .debpoll (button ⟨false, 100#32, .pressed⟩ false 2100#32)).deb,
      (after .debpoll (button ⟨false, 100#32, .pressed⟩ false 2100#32)).evf) =
    (⟨false, 100#32, .held⟩, 0b0010#4) := by decide

/-- V18: the poll's one event is observed once. -/
theorem test_debpoll_observed :
    (after .debpoll (button ⟨false, 0xFFFFFFFA#32, .released⟩ false 4#32)).evtrace = [.emitted .buttonPress] := by
  decide

/-- V30 and V36. -/
theorem test_plsend :
    ((after .plsend { State.reset with millis := 110#32 }).pls,
      (after .plsend { State.reset with millis := 110#32 }).lines.powerPulseOut) = (⟨true, 110#32⟩, true) := by decide
theorem test_plsend_overlap :
    after .plsend (pulsing 110#32 120#32) = { pulsing 110#32 120#32 with fault := [.pulseOverlap 120#32] } := by decide

/-- V33 and V34: across the rollover. -/
theorem test_plpoll_early : after .plpoll (pulsing 0xFFFFFFF0#32 0x0D#32) = pulsing 0xFFFFFFF0#32 0x0D#32 := by decide
theorem test_plpoll_ends :
    ((after .plpoll (pulsing 0xFFFFFFF0#32 0x0E#32)).pls,
      (after .plpoll (pulsing 0xFFFFFFF0#32 0x0E#32)).lines.powerPulseOut) = (⟨false, 0xFFFFFFF0#32⟩, false) := by
  decide

/-- V45 and V44. -/
theorem test_ledset : (after (.ledset 2#2 0x123456#24) State.reset).mem = [(6, 0x12#8), (7, 0x34#8), (8, 0x56#8)] := by
  decide
theorem test_ledset_out_of_range :
    after (.ledset 3#2 0xFFFFFF#24) State.reset = { State.reset with fault := [.ledIndexOutOfRange 3#2] } := by decide

/-- V43: the first eight pulses are the byte 0x12. -/
theorem test_ledshow_first_byte :
    ((after .ledshow (State.reset.setLed 0#2 0x123456#24)).ledtrace.map (fun f => f.take 16)) =
    [[0, 0, 0, 1, 0, 0, 1, 0].flatMap (fun b => if b = 1 then [⟨true, 900⟩, ⟨false, 300⟩] else [⟨true, 300⟩, ⟨false, 900⟩])] := by
  decide

/-- V42: one bit of the frame is 1. -/
theorem test_ledshow_ones : frameHighNs (frameOf (frameBits (State.reset.setLed 0#2 0x200000#24))) = 22200 := by decide

/-- 43_led.md R144, 90_conflicts.md C7: a longer latch is met, a shorter one is not, whatever the tolerance. -/
theorem test_latch_is_a_minimum :
    frameTimesMet 150 [latchSegment] [60000] ∧ ¬ frameTimesMet 150 [latchSegment] [49999] := by
  constructor
  · refine ⟨rfl, ?_⟩
    rintro (_ | n) g a hg ha
    · cases hg
      cases ha
      decide
    · cases hg
  · rintro ⟨-, h⟩
    exact absurd (h 0 latchSegment 49999 rfl rfl) (by decide)

/-- V50. -/
theorem test_regset_on :
    ((after (.regset true) State.reset).lines, (after (.regset true) State.reset).mem,
      (after (.regset true) State.reset).reg) =
    (⟨true, true, false, false⟩, [(1, 0x20#8), (4, 0xFF#8), (5, 0xFF#8), (7, 0xFF#8), (8, 0xFF#8)], true) := by decide

/-- V61 and V69. -/
theorem test_svc_pulse :
    (after (.svc .buttonPress) { railsOn with evf := 0b0001#4, millis := 200#32 }).pls = ⟨true, 200#32⟩ := by decide
theorem test_svc_overlap :
    ((after (.svc .companionPowerRequest) overlapping).fault, (after (.svc .companionPowerRequest) overlapping).evf) =
    ([.pulseOverlap 200#32], 0b0000#4) := by decide

/-- V81. -/
theorem test_tick_wraps : (after .tick { State.reset with millis := 0xFFFFFFFF#32 }).millis = 0#32 := by decide

/-- V84. -/
theorem test_edge :
    (after (.edge .companionShutdownComplete) { State.reset with evf := 0b0001#4 }).evf = 0b1001#4 := by decide

/-! ### One step -/

/-- The first step after reset runs DEBPOLL (10_state.md R26). -/
theorem test_first_step : stepped State.reset = { State.reset with phase := 1#3 } := by decide

/-- `phase` wraps from 5 to 0 (45_controlloop.md R178). -/
theorem test_phase_wraps : (stepped { State.reset with phase := 5#3 }).phase = 0#3 := by decide

/-- P5: the faulting SVC 2 keeps `phase` 4. -/
theorem test_fault_keeps_phase : (stepped { overlapping with phase := 4#3 }).phase = 4#3 := by decide

/-- A placed word is run and `phase` stays (30_encoding.md R73). -/
theorem test_placed_word :
    stepped (State.reset.withFetchWord 32 0xA0000000) = { State.reset with millis := 1#32 } := by decide

/-- A rising edge of a companion line sets its flag; a second drive to the same level does nothing
(46_async_agents.md R192). -/
theorem test_rising_edge :
    (stepped (State.reset.setAgenda [.drive .companionShutdownComplete true])).evf = 0b1000#4 := by decide
theorem test_steady_level :
    (stepped { State.reset with
      agenda := [.drive .companionShutdownComplete true], inputs := ⟨true, false, true⟩ }).evf = 0#4 := by decide

/-! ### Witnesses: the hypotheses of each statement are met -/

theorem witness_decode_of_encode : (Instr.edge .companionShutdownComplete).wellFormed = true := by decide

theorem witness_encode_of_decode : decode 0xBC000000#32 = .ok (.edge .companionShutdownComplete) := rfl

theorem witness_rows : rowLedset ∈ opcodeTable ∧ 0x6CFFFFFF#32 &&& rowLedset.mask = rowLedset.pattern := by decide

theorem witness_illegal_words :
    (∀ r ∈ opcodeTable, 0x30000001#32 &&& r.mask ≠ r.pattern) ∧
    (0x00000000#32).extractLsb' 28 4 = 0x0#4 ∧ 0xC ≤ ((0xC0000000#32).extractLsb' 28 4).toNat ∧
    0xC ≤ ((0xFFFFFFFF#32).extractLsb' 28 4).toNat ∧
    (0xB7FFFFFF#32).extractLsb' 28 4 = 0xB#4 ∧ (0xB7FFFFFF#32).getLsbD 27 = false ∧
    opcField 0x30000001#32 = opcField rowDebpoll.pattern ∧
    0x30000001#32 &&& rowDebpoll.mask ≠ rowDebpoll.pattern := by decide

theorem witness_flag_clauses :
    (Event.buttonPress ≠ Event.buttonHold) ∧ ({ State.reset with evf := 0b0001#4 } : State).flag .buttonPress = true ∧
    State.reset.flag .buttonPress = false := by decide

theorem witness_trace_account : State.reset.traceAccounts ∧ ∃ t, step State.reset = .next t := ⟨rfl, _, rfl⟩

theorem witness_takes_and_sets :
    ({ State.reset with
      evtrace := [.emitted .buttonPress, .taken .buttonPress, .emitted .buttonPress]
      evf := 0b0001#4 } : State).traceAccounts := rfl

theorem witness_between_takes :
    ({ State.reset with
      evtrace := [] ++ [.emitted .buttonHold] ++ .taken .buttonHold :: [.emitted .buttonHold] ++
        .taken .buttonHold :: [] } : State).traceAccounts := rfl

/-- Each clause of the transition table at its boundary: elapsed 0xFFFFFFFF, 0, 9, 10, 1999, 2000. -/
theorem witness_table_clauses :
    (true ≠ (⟨false, 100#32, .held⟩ : Debouncer).lastLevel) ∧
    (true = (⟨true, 100#32, .released⟩ : Debouncer).lastLevel) ∧
    (false = (⟨false, 100#32, .released⟩ : Debouncer).lastLevel) ∧
    (sub32 109#32 100#32).toNat < 10 ∧ 10 ≤ (sub32 110#32 100#32).toNat ∧ 10 ≤ (sub32 99#32 100#32).toNat ∧
    (sub32 2099#32 100#32).toNat < 2000 ∧ 2000 ≤ (sub32 2100#32 100#32).toNat := by decide

theorem witness_hold_after_press :
    (debounce ⟨false, 100#32, .pressed⟩ false 2100#32).2 = some .buttonHold ∧
    2000 ≤ (sub32 2100#32 100#32).toNat ∧ 2000 ≤ (sub32 2101#32 100#32).toNat := by decide

theorem witness_press_from_change : State.reset.deb.lastLevel = true := rfl

theorem witness_rollover : 2 ^ 32 - 1 < 2 ^ 32 := by decide

theorem witness_press_spacing :
    pollsWithin 1 109#32 110#32 ∧ (sub32 109#32 100#32).toNat < 10 ∧
    (debounce ⟨false, 100#32, .released⟩ false 110#32).2 = some .buttonPress := by
  unfold pollsWithin
  decide

theorem witness_hold_spacing :
    pollsWithin 1 2099#32 2100#32 ∧ (sub32 2099#32 100#32).toNat < 2000 ∧
    (debounce ⟨false, 100#32, .pressed⟩ false 2100#32).2 = some .buttonHold := by
  unfold pollsWithin
  decide

theorem witness_pulse_spacing :
    pollsWithin 1 139#32 140#32 ∧ (sub32 139#32 110#32).toNat < 30 ∧ pulseDone ⟨true, 110#32⟩ 140#32 = true := by
  unfold pollsWithin
  decide

theorem witness_plsend_clauses :
    State.reset.pls.active = false ∧ (pulsing 110#32 120#32).pls.active = true := by decide

/-- Elapsed 30 and 29, and no pulse. -/
theorem witness_plpoll_clauses :
    (pulsing 110#32 140#32).pls.active = true ∧ 30 ≤ (140 + 2 ^ 32 - 110) % 2 ^ 32 ∧
    (139 + 2 ^ 32 - 110) % 2 ^ 32 < 30 ∧ State.reset.pls.active = false := by decide

theorem witness_pulse_lowered :
    ∃ t, exec .plpoll (pulsing 110#32 140#32) = .next t ∧ (pulsing 110#32 140#32).lines.powerPulseOut = true ∧
      t.lines.powerPulseOut = false := ⟨_, rfl, rfl, rfl⟩

theorem witness_ledset_clauses : (2#2 : LedIndex).toNat < 3 ∧ (0#2 : LedIndex) ≠ 2#2 ∧ ledAddr 2#2 + 3 ≤ 9 := by decide

theorem witness_ledshow_runs : ∃ t, exec .ledshow State.reset = .next t := ⟨_, rfl⟩

theorem witness_buffer_changes :
    ∃ t, exec (.ledset 2#2 0x123456#24) State.reset = .next t ∧ t.readByte 8 ≠ State.reset.readByte 8 :=
  ⟨_, rfl, by decide⟩

/-- A hypothesis of each clause of SVC: clear; request with rails off; with rails on and no pulse; with a pulse;
shutdown with rails on; with rails off. -/
theorem witness_svc_clauses :
    State.reset.flag .buttonPress = false ∧
    ({ State.reset with evf := 0b0001#4 } : State).flag .buttonPress = true ∧ State.reset.reg = false ∧
    ({ railsOn with evf := 0b0100#4 } : State).flag .companionPowerRequest = true ∧ railsOn.reg = true ∧
    railsOn.pls.active = false ∧
    overlapping.flag .companionPowerRequest = true ∧ overlapping.reg = true ∧ overlapping.pls.active = true ∧
    ({ railsOn with evf := 0b1000#4 } : State).flag .companionShutdownComplete = true ∧
    ({ State.reset with evf := 0b0010#4 } : State).flag .buttonHold = true := by decide

/-- The general clause: two events, the later one's flag set, `reg` either way. -/
theorem witness_service_then_service :
    Event.buttonHold ≠ .companionShutdownComplete ∧
    (∃ t, exec (.svc .buttonHold) { railsOn with evf := 0b1010#4 } = .next t ∧ t.reg = false) ∧
    (∃ t, exec (.svc .companionPowerRequest) { railsOn with evf := 0b1100#4 } = .next t ∧ t.reg = true) ∧
    ({ railsOn with evf := 0b1010#4 } : State).flag .companionShutdownComplete = true ∧
    ({ railsOn with evf := 0b1010#4 } : State).flag .buttonHold = true ∧
    ({ railsOn with evf := 0b1100#4 } : State).flag .companionShutdownComplete = true ∧
    ({ railsOn with evf := 0b1100#4 } : State).flag .companionPowerRequest = true ∧
    railsOn.reg = true ∧ railsOn.pls.active = false :=
  ⟨by decide, ⟨_, rfl, rfl⟩, ⟨_, rfl, rfl⟩, rfl, rfl, rfl, rfl, rfl, rfl⟩

/-- The nine rows of the drain: rails on and off, no fault, no pulse, and any flags. -/
theorem witness_drain_rows :
    ∀ f : FlagSet,
      (({ railsOn with evf := f } : State).fault = [] ∧ ({ railsOn with evf := f } : State).pls.active = false ∧
        ({ railsOn with evf := f } : State).reg = true ∧ ({ railsOn with evf := f } : State).evf = f) ∧
      ({ State.reset with evf := f } : State).fault = [] ∧
        ({ State.reset with evf := f } : State).pls.active = false ∧
        ({ State.reset with evf := f } : State).reg = false ∧ ({ State.reset with evf := f } : State).evf = f :=
  fun _ => ⟨⟨rfl, rfl, rfl, rfl⟩, rfl, rfl, rfl, rfl⟩

/-- The three clauses: flags hold and request with the rails on; press and request with them off; and with them on. -/
theorem witness_two_services :
    ({ railsOn with evf := 0b0110#4 } : State).flag .buttonHold = true ∧
    ({ railsOn with evf := 0b0110#4 } : State).flag .companionPowerRequest = true ∧
    ({ State.reset with evf := 0b0101#4 } : State).flag .buttonPress = true ∧
    ({ State.reset with evf := 0b0101#4 } : State).flag .companionPowerRequest = true ∧
    ({ railsOn with evf := 0b0101#4 } : State).flag .buttonPress = true ∧
    ({ railsOn with evf := 0b0101#4 } : State).flag .companionPowerRequest = true := by decide

theorem witness_tick_wraps : ({ State.reset with millis := 0xFFFFFFFF#32 } : State).millis = 0xFFFFFFFF#32 := rfl

/-- One change of each register and line. -/
theorem witness_writers :
    (after .debpoll (button ⟨true, 0#32, .released⟩ false 100#32)).deb ≠ ⟨true, 0#32, .released⟩ ∧
    (after .plsend State.reset).pls ≠ State.reset.pls ∧
    (after (.regset true) State.reset).reg ≠ State.reset.reg ∧
    (after .tick State.reset).millis ≠ State.reset.millis ∧
    (after (.evset .buttonPress) State.reset).evf ≠ State.reset.evf ∧
    (after (.regset true) State.reset).lines.regulatorEnable ≠ State.reset.lines.regulatorEnable ∧
    (after .plsend State.reset).lines.powerPulseOut ≠ State.reset.lines.powerPulseOut ∧
    (after .ledshow State.reset).ledtrace ≠ State.reset.ledtrace := by decide

/-- Each named cause of a fault. -/
theorem witness_fault_causes :
    (after (.ledset 3#2 0#24) State.reset).fault ≠ State.reset.fault ∧
    (after .plsend (pulsing 110#32 120#32)).fault ≠ (pulsing 110#32 120#32).fault ∧
    (after (.svc .companionPowerRequest) overlapping).fault ≠ overlapping.fault ∧
    (after (.edge .buttonPress) State.reset).fault ≠ State.reset.fault := by decide

theorem witness_faulted_step :
    faulted.fault ≠ [] ∧ (∃ t, step { faulted with agenda := [.timer] } = .next t) ∧ faulted.flag .buttonHold = true :=
  ⟨by decide, ⟨_, rfl⟩, by decide⟩

theorem witness_stopped_turns :
    nextTurn faulted = .main ∧ nextTurn { faulted with agenda := [.issue 0x30000000#32] } = .issue 0x30000000#32 ∧
    ∀ i, decode 0x30000000#32 = .ok i → i ≠ .tick ∧ ∀ e, i ≠ .edge e := by
  refine ⟨rfl, rfl, ?_⟩
  intro i h
  injection h with h
  subst h
  exact ⟨by decide, fun e h => by cases h⟩

/-- Unfaulted with DEBPOLL, and faulted with TICK and with EDGE 3. -/
theorem witness_issued_words :
    State.reset.fault = [] ∧ decode 0x30000000#32 = .ok .debpoll ∧ decode 0xA0000000#32 = .ok .tick ∧
    decode 0xBC000000#32 = .ok (.edge .companionShutdownComplete) ∧
    (State.reset.issueNext 0x30000000#32).agenda = .issue 0x30000000#32 :: [] := ⟨rfl, rfl, rfl, rfl, rfl⟩

theorem witness_placed_word : 0xBC000000 < 2 ^ 32 ∧
    decode (BitVec.ofNat 32 0xBC000000) = .ok (.edge .companionShutdownComplete) := ⟨by decide, rfl⟩

/-- The program at its first and last phase, and a turn that ends in a fault. -/
theorem witness_main_turn :
    State.reset.agenda = [] ∧ State.reset.fault = [] ∧ overlapping.fault = [] ∧
    [Instr.debpoll, .plpoll, .svc .buttonPress, .svc .buttonHold, .svc .companionPowerRequest,
      .svc .companionShutdownComplete][(0#3).toNat]? = some .debpoll ∧
    [Instr.debpoll, .plpoll, .svc .buttonPress, .svc .buttonHold, .svc .companionPowerRequest,
      .svc .companionShutdownComplete][(5#3).toNat]? = some (.svc .companionShutdownComplete) ∧
    (after (.svc .companionPowerRequest) { overlapping with phase := 4#3 }).fault ≠ [] := by decide

theorem witness_unfaulted_main :
    ({ State.reset with phase := 5#3 } : State).phaseLegal ∧ nextTurn { State.reset with phase := 5#3 } = .main := by
  unfold State.phaseLegal
  decide

theorem witness_timer_turn : (State.reset.setAgenda [.timer]).agenda = .timer :: [] := rfl

/-- PowerButton, a falling edge, a steady high level, and a rising edge of each companion line. -/
theorem witness_driven_lines :
    (State.reset.setAgenda [.drive .powerButton false]).agenda = .drive .powerButton false :: [] ∧
    (⟨true, true, true⟩ : InputLines).level .companionPowerRequest = true ∧
    State.reset.inputs.level .companionPowerRequest = false ∧
    State.reset.inputs.level .companionShutdownComplete = false := by decide

theorem witness_phase_moves : ∃ t, step State.reset = .next t ∧ t.phase ≠ State.reset.phase := ⟨_, rfl, by decide⟩

theorem witness_invariants : State.reset.Inv ∧ ∃ t, step State.reset = .next t :=
  ⟨⟨by unfold State.phaseLegal; decide, rfl, ⟨rfl, rfl⟩, fun _ => rfl, rfl, reset_memory_wf⟩, _, rfl⟩

end Tests
end Sys2Proof
end

-- ==== EVSET and EVTAKE (spec/40_eventflags.md R100, R101) ====
section
/-! PROOF. The rules of the two accesses to the event flags, and the two obligations about them. -/

namespace Sys2Proof

/-! ### The words -/

/-- A format S word is its opcode and its selector, each at its place (30_encoding.md R76). -/
theorem wordS_eq_or (opc : BitVec 4) (sel : BitVec 2) :
    wordS opc sel = (opc.setWidth 32 <<< 28) ||| (sel.setWidth 32 <<< 26) := by
  revert opc sel
  decide

theorem encode_evset (e : Event) : encode (.evset e) = 0x10000000#32 ||| (e.id.setWidth 32 <<< 26) :=
  wordS_eq_or 0x1#4 e.id

theorem encode_evtake (e : Event) : encode (.evtake e) = 0x20000000#32 ||| (e.id.setWidth 32 <<< 26) :=
  wordS_eq_or 0x2#4 e.id

namespace Machine

/-! ### EVSET -/

@[simp] theorem evSet_readByte (e : Event) (s : State) (a : Nat) : (evSet e s).readByte a = s.readByte a := rfl

theorem evSet_sets_flag (e : Event) (s : State) : (evSet e s).flag e = true := by simp

theorem evSet_flag_other {e e' : Event} (s : State) (h : e' ≠ e) : (evSet e s).flag e' = s.flag e' := by simp [h]

/-- Setting a flag that is set changes no flag. -/
theorem set_of_set : ∀ (e : Event) (f : BitVec 4), f.getLsbD e.id.toNat = true → f ||| eventMask e = f := by
  intro e
  cases e <;> decide

theorem evSet_evf_of_set {e : Event} {s : State} (h : s.flag e = true) : (evSet e s).evf = s.evf :=
  set_of_set e s.evf h

/-! ### EVTAKE -/

theorem evTake_eq (e : Event) (s : State) : evTake e s = (s.flag e, (evTake e s).2) :=
  Prod.ext (evTake_fst e s) rfl

/-- What EVTAKE leaves unchanged: all but the flags and the event trace. -/
theorem evTake_frame (e : Event) (s : State) :
    (evTake e s).2 = { s with evf := s.evf &&& ~~~ eventMask e, evtrace := (evTake e s).2.evtrace } := by
  rw [evTake_snd]

@[simp] theorem evTake_readByte (e : Event) (s : State) (a : Nat) : (evTake e s).2.readByte a = s.readByte a := by
  rw [evTake_frame]
  rfl

theorem evTake_clears_flag (e : Event) (s : State) : (evTake e s).2.flag e = false := by simp

theorem evTake_flag_other {e e' : Event} (s : State) (h : e' ≠ e) : (evTake e s).2.flag e' = s.flag e' := by simp [h]

/-- Where the flag is clear, nothing changes, the event trace included (R101, corner case a). -/
theorem evTake_of_clear {e : Event} {s : State} (h : s.flag e = false) : (evTake e s).2 = s := by
  have hevf : s.evf &&& ~~~ eventMask e = s.evf := clear_of_clear e s.evf h
  simp [evTake_snd, h, hevf]

/-! ### The obligations -/

/-- Settles O6: the next state of EVSET is `evSet e s`, and the rules of `evSet` are the clauses of R100. -/
theorem evsetSetsItsFlagAndNothingElse : Obligations.EvsetSetsItsFlagAndNothingElse := fun e s =>
  ⟨encode_evset e, evSet e s, exec_eq_effect (.evset e) s, evSet_eq e s, evSet_sets_flag e s,
    fun _ => evSet_flag_other s, evSet_evf_of_set, evSet_readByte e s⟩

/-- Settles O7: the next state of EVTAKE is `(evTake e s).2`, and the rules of `evTake` are the clauses of R101. -/
theorem evtakeReturnsItsFlagAndClearsIt : Obligations.EvtakeReturnsItsFlagAndClearsIt := fun e s =>
  ⟨encode_evtake e, (evTake e s).2, exec_eq_effect (.evtake e) s, evTake_eq e s, evTake_frame e s,
    evTake_clears_flag e s, fun _ => evTake_flag_other s, evTake_of_clear, evTake_readByte e s⟩

end Machine
end Sys2Proof
end

-- ==== DEBPOLL (spec/41_debouncer.md R110) ====
section
/-! PROOF. The two steps of one poll as equations, the state DEBPOLL leaves, and the obligation about it. -/

namespace Sys2Proof
namespace Machine

/-! ### Step 1: noting the level -/

theorem noteLevel_eq (d : Debouncer) (level : Level) (now : Stamp) :
    noteLevel d level now =
      ⟨level, if level != d.lastLevel then now else d.ltt, if level != d.lastLevel then .released else d.state⟩ := by
  by_cases h : level = d.lastLevel <;> simp [noteLevel, h]

/-! ### Step 2: advancing the press -/

/-- The poll advances to Pressed: `elapsed >=u PRESS_THRESHOLD_MS` and the state is below Pressed, at the pressed
level (R110). -/
def pressDue (d : Debouncer) (now : Stamp) : Bool :=
  !d.lastLevel && decide (10 ≤ (sub32 now d.ltt).toNat) && decide (d.state = .released)

/-- The poll advances to Held unless it advances to Pressed: `elapsed >=u HOLD_THRESHOLD_MS` and the state is below
Held, at the pressed level (R110). -/
def holdDue (d : Debouncer) (now : Stamp) : Bool :=
  !d.lastLevel && decide (2000 ≤ (sub32 now d.ltt).toNat) && decide (d.state ≠ .held)

theorem below_pressed (st : ButtonState) : st.below .pressed = decide (st = .released) := by cases st <;> rfl

theorem below_held (st : ButtonState) : st.below .held = decide (st ≠ .held) := by cases st <;> rfl

theorem advancePress_eq (d : Debouncer) (now : Stamp) :
    advancePress d now =
      if pressDue d now then ({ d with state := .pressed }, some .buttonPress)
      else if holdDue d now then ({ d with state := .held }, some .buttonHold)
      else (d, none) := by
  cases h : d.lastLevel with
  | true => simp [advancePress, pressDue, holdDue, h]
  | false => simp [advancePress, pressDue, holdDue, h, below_pressed, below_held, geU_iff]

/-! ### DEBPOLL -/

@[simp] theorem emitIfAny_readByte (ev : Option Event) (s : State) (a : Nat) :
    (emitIfAny ev s).readByte a = s.readByte a := by cases ev <;> rfl

/-- The state DEBPOLL leaves, by the advance of its poll. -/
theorem effect_debpoll (s : State) {d : Debouncer} (hd : noteLevel s.deb s.inputs.powerButton s.millis = d) :
    effect .debpoll s =
      if pressDue d s.millis then evSet .buttonPress (s.setDeb { d with state := .pressed })
      else if holdDue d s.millis then evSet .buttonHold (s.setDeb { d with state := .held })
      else s.setDeb d := by
  simp only [effect, debounce, hd, advancePress_eq]
  split
  · rfl
  · split <;> rfl

/-- Settles O14: step 1 leaves `⟨level, ltt, before⟩`, `press` and `hold` are the conditions of step 2 on it, and in
each of the three cases of `effect_debpoll` the fields are those of R110. -/
theorem debpollRunsTheDebounceAlgorithm : Obligations.DebpollRunsTheDebounceAlgorithm := by
  intro s level changed ltt before elapsed press hold
  refine ⟨rfl, effect .debpoll s, exec_eq_effect .debpoll s, ?_, fun a => emitIfAny_readByte _ _ a⟩
  have noted : noteLevel s.deb level s.millis = ⟨level, ltt, before⟩ := noteLevel_eq s.deb level s.millis
  have hpress : pressDue ⟨level, ltt, before⟩ s.millis = press := by
    simp only [pressDue, sub32_toNat]
    rfl
  have hhold : holdDue ⟨level, ltt, before⟩ s.millis = hold := by
    simp only [holdDue, sub32_toNat]
    rfl
  rw [effect_debpoll s noted, hpress, hhold]
  cases press with
  | true => rfl
  | false => cases hold <;> rfl

end Machine
end Sys2Proof
end

-- ==== PLPOLL (spec/42_pulse.md R132) ====
section
/-! PROOF. When the outstanding pulse is done, what PLPOLL leaves unchanged, and the obligation about it. -/

namespace Sys2Proof
namespace Machine

theorem pulseDone_iff (p : Pulse) (now : Stamp) :
    pulseDone p now = true ↔ p.active = true ∧ 30 ≤ (sub32 now p.start).toNat := by
  rw [pulseDone, Bool.and_eq_true, geU_iff, pulseDurationMs_toNat]

theorem pulseDone_eq_false_iff (p : Pulse) (now : Stamp) :
    pulseDone p now = false ↔ p.active = false ∨ (sub32 now p.start).toNat < 30 := by
  rw [← Bool.not_eq_true, pulseDone_iff, not_and_or, Bool.not_eq_true, Nat.not_le]

@[simp] theorem plPoll_readByte (s : State) (a : Nat) : (plPoll s).readByte a = s.readByte a := by
  cases h : pulseDone s.pls s.millis with
  | true => rw [plPoll_done h]; rfl
  | false => rw [plPoll_not_done h]

/-- Settles O21: PLPOLL leaves `plPoll s`; the obligation's two clauses are the two values of `pulseDone`, whose
elapsed time is the subtraction modulo 2^32 of `sub32_toNat`. -/
theorem plpollEndsThePulseAfterItsDuration : Obligations.PlpollEndsThePulseAfterItsDuration := by
  intro s elapsed
  have helapsed : (sub32 s.millis s.pls.start).toNat = elapsed := sub32_toNat s.millis s.pls.start
  have hexec : exec .plpoll s = .next (plPoll s) := exec_eq_effect .plpoll s
  refine ⟨rfl, fun hactive hlong => ?_, fun hrest => ?_, fun t ht a => ?_⟩
  · have hdone : pulseDone s.pls s.millis = true := (pulseDone_iff _ _).mpr ⟨hactive, helapsed ▸ hlong⟩
    rw [hexec, plPoll_done hdone]
  · have hnot : pulseDone s.pls s.millis = false := (pulseDone_eq_false_iff _ _).mpr (helapsed ▸ hrest)
    rw [hexec, plPoll_not_done hnot]
  · rw [(exec_next_iff .plpoll s t).mp ht]
    exact plPoll_readByte s a

end Machine
end Sys2Proof
end

-- ==== LEDSHOW (spec/43_led.md R142, R147) ====
section
/-! PROOF. Where a bit of the buffer stands in its frame, and the obligation about LEDSHOW. -/

namespace Sys2Proof
namespace Machine

/-! ### Blocks of one length -/

/-- Where the elements of a list are replaced by blocks of one length `k`, place `k * n + m` is place `m` of the block
of element `n`. -/
theorem getElem?_flatMap_of_length {α β : Type} {f : α → List β} {k : Nat} (hf : ∀ a, (f a).length = k) {m : Nat}
    (hm : m < k) (l : List α) (n : Nat) : (l.flatMap f)[k * n + m]? = l[n]?.bind (fun a => (f a)[m]?) := by
  induction l generalizing n with
  | nil => simp
  | cons a l ih =>
    rw [List.flatMap_cons]
    cases n with
    | zero => simp [List.getElem?_append_left, hf, hm]
    | succ n =>
      have later : k * (n + 1) + m = (f a).length + (k * n + m) := by rw [hf]; ring
      rw [later, List.getElem?_append_right (Nat.le_add_right _ _), Nat.add_sub_cancel_left, ih]
      rfl

/-! ### The bits (R143) -/

@[simp] theorem length_colorBits (c : LedColor) : (colorBits c).length = 24 := by simp [colorBits]

theorem getElem?_colorBits (c : LedColor) {m : Nat} (hm : m < 24) :
    (colorBits c)[m]? = some (c.getLsbD (23 - m)) := by
  simp [colorBits, hm]

theorem getElem?_ledIndices {n : Nat} (hn : n < 3) : ledIndices[n]? = some (BitVec.ofNat 2 n) := by
  simp [ledIndices, Config.ledCount, hn]

@[simp] theorem length_frameBits (s : State) : (frameBits s).length = 72 := by
  simp [frameBits, ledIndices, Config.ledCount, Function.comp_def]

theorem getElem?_frameBits (s : State) {n : Nat} (hn : n < 72) :
    (frameBits s)[n]? = some ((s.led (BitVec.ofNat 2 (n / 24))).getLsbD (23 - n % 24)) := by
  have hbit : n % 24 < 24 := Nat.mod_lt n (by decide)
  have hentry : n / 24 < 3 := by omega
  calc (frameBits s)[n]? = (frameBits s)[24 * (n / 24) + n % 24]? := by rw [Nat.div_add_mod]
    _ = ledIndices[n / 24]?.bind (fun i => (colorBits (s.led i))[n % 24]?) :=
      getElem?_flatMap_of_length (fun i => length_colorBits (s.led i)) hbit ledIndices (n / 24)
    _ = some ((s.led (BitVec.ofNat 2 (n / 24))).getLsbD (23 - n % 24)) := by
      simp [getElem?_ledIndices hentry, getElem?_colorBits _ hbit]

/-! ### The segments (R147) -/

@[simp] theorem length_pulseSegments (b : Bool) : (pulseSegments b).length = 2 := rfl

theorem length_pulses (bits : List Bool) : (bits.flatMap pulseSegments).length = 2 * bits.length := by
  simp [List.length_flatMap, Nat.mul_comm]

@[simp] theorem length_frameOf (bits : List Bool) : (frameOf bits).length = 2 * bits.length + 1 := by
  rw [frameOf, List.length_append, length_pulses, List.length_singleton]

theorem getElem?_frameOf_pulse {bits : List Bool} {n : Nat} {b : Bool} (h : bits[n]? = some b) {m : Nat} (hm : m < 2) :
    (frameOf bits)[2 * n + m]? = (pulseSegments b)[m]? := by
  have hn : n < bits.length := (List.getElem?_eq_some_iff.mp h).1
  have hpulses : 2 * n + m < (bits.flatMap pulseSegments).length := by rw [length_pulses]; omega
  rw [frameOf, List.getElem?_append_left hpulses, getElem?_flatMap_of_length length_pulseSegments hm, h,
    Option.bind_some]

theorem getElem?_frameOf_high {bits : List Bool} {n : Nat} {b : Bool} (h : bits[n]? = some b) :
    (frameOf bits)[2 * n]? = some ⟨true, if b then 900 else 300⟩ :=
  getElem?_frameOf_pulse h (by decide : 0 < 2)

theorem getElem?_frameOf_low {bits : List Bool} {n : Nat} {b : Bool} (h : bits[n]? = some b) :
    (frameOf bits)[2 * n + 1]? = some ⟨false, if b then 300 else 900⟩ :=
  getElem?_frameOf_pulse h (by decide : 1 < 2)

theorem getElem?_frameOf_latch (bits : List Bool) : (frameOf bits)[2 * bits.length]? = some ⟨false, 50000⟩ := by
  rw [frameOf, ← length_pulses, List.getElem?_concat_length]
  rfl

/-- The frame LEDSHOW sends is that of the buffer. -/
theorem frameShows_frameBits (s : State) : frameShows s.led (frameOf (frameBits s)) := by
  refine ⟨by simp, fun n hn => ?_, ?_⟩
  · have hbit := getElem?_frameBits s hn
    exact ⟨getElem?_frameOf_high hbit, getElem?_frameOf_low hbit⟩
  · have hlatch := getElem?_frameOf_latch (frameBits s)
    rwa [length_frameBits] at hlatch

/-! ### LEDSHOW (R142) -/

@[simp] theorem ledShow_readByte (s : State) (a : Nat) : (ledShow s).readByte a = s.readByte a := rfl

/-- Settles O25: LEDSHOW leaves `ledShow s`, and the frame it appends is that of `frameShows_frameBits`. -/
theorem ledshowSendsTheBufferAsOneFrame : Obligations.LedshowSendsTheBufferAsOneFrame := fun s =>
  ⟨rfl, ledShow s, frameOf (frameBits s), exec_eq_effect .ledshow s, frameShows_frameBits s, ledShow_eq s,
    ledShow_readByte s⟩

end Machine
end Sys2Proof
end

-- ==== REGSET (spec/44_regulator.md R160, R161) ====
section
/-! PROOF. The rules of `regSet`, that it leaves what `railsSwitched` says, and the obligation about REGSET. -/

namespace Sys2Proof

/-! ### The word -/

/-- A format B word is its opcode and its bit, each at its place (30_encoding.md R78). -/
theorem wordB_eq_or (opc : BitVec 4) (en : Bool) :
    wordB opc en = (opc.setWidth 32 <<< 28) ||| ((BitVec.ofBool en).setWidth 32 <<< 24) := by
  revert opc en
  decide

theorem encode_regset (en : Bool) :
    encode (.regset en) = 0x80000000#32 ||| ((BitVec.ofBool en).setWidth 32 <<< 24) :=
  wordB_eq_or 0x8#4 en

namespace Machine

/-! ### The palette (R161) -/

theorem powerColor_eq (en : Bool) : powerColor en = if en then 0x002000#24 else 0x200000#24 := rfl

theorem discColor_eq (en : Bool) : discColor en = if en then 0x00FFFF#24 else 0x000000#24 := rfl

/-! ### REGSET (R160) -/

/-- The buffer REGSET leaves is the one it sent. -/
@[simp] theorem regSet_led (en : Bool) (s : State) : (regSet en s).led = (writePalette en s).led := by
  rw [regSet_eq]
  rfl

theorem regSet_readByte_outside (en : Bool) (s : State) {a : Nat} (h : ledBytes ≤ a) :
    (regSet en s).readByte a = s.readByte a := by
  rw [regSet_eq]
  exact writePalette_readByte_other en s h

/-- What REGSET leaves unchanged, and what it writes outside the buffer. -/
theorem regSet_frame (en : Bool) (s : State) :
    regSet en s =
      { s with
        lines := ⟨en, en, s.lines.powerPulseOut, false⟩
        mem := (regSet en s).mem
        ledtrace := s.ledtrace ++ [frameOf (frameBits (writePalette en s))]
        reg := en } := by
  rw [regSet_eq]

theorem railsSwitched_regSet (en : Bool) (s : State) :
    railsSwitched en s (regSet en s) (frameOf (frameBits (writePalette en s))) := by
  refine ⟨regSet_frame en s, ?_, ?_, ?_, ?_, fun a => regSet_readByte_outside en s⟩
  · rw [regSet_led, writePalette_led0, powerColor_eq]
  · rw [regSet_led, writePalette_led1, discColor_eq]
  · rw [regSet_led, writePalette_led2, discColor_eq]
  · rw [regSet_led]
    exact frameShows_frameBits (writePalette en s)

/-- Settles O31: REGSET leaves `regSet en s`, and the frame it appends is that of the palette just written. -/
theorem regsetSwitchesRailsAndShowsThePalette : Obligations.RegsetSwitchesRailsAndShowsThePalette := fun en s =>
  ⟨encode_regset en, regSet en s, frameOf (frameBits (writePalette en s)), exec_eq_effect (.regset en) s,
    railsSwitched_regSet en s⟩

end Machine
end Sys2Proof
end

-- ==== SVC by the policy table (spec/45_controlloop.md R173) ====
section
/-! PROOF. The rows of the policy table, what SVC does in each of them, and the obligation about the table. -/

namespace Sys2Proof
namespace Machine

/-! ### What the sub-operations leave in `reg` -/

@[simp] theorem evTake_reg (e : Event) (s : State) : (evTake e s).2.reg = s.reg := by rw [evTake_snd]

@[simp] theorem raise_reg (r : FaultRecord) (s : State) : (raise r s).reg = s.reg := by rw [raise_eq]

@[simp] theorem plSend_reg (s : State) : (plSend s).reg = s.reg := by
  cases h : s.pls.active
  · rw [plSend_inactive h]
  · rw [plSend_active h, raise_reg]

@[simp] theorem regSet_reg (en : Bool) (s : State) : (regSet en s).reg = en := by rw [regSet_eq]

/-! ### The table (R173) -/

/-- The two rows of a request for power. -/
theorem policy_of_request {e : Event} (he : e = .buttonPress ∨ e = .companionPowerRequest) (reg : Bool) :
    policy e reg = if reg then .sendPulse else .railsOn := by
  rcases he with rfl | rfl <;> cases reg <;> rfl

/-- The two rows of a shutdown. -/
theorem policy_of_shutdown {e : Event} (he : e = .buttonHold ∨ e = .companionShutdownComplete) (reg : Bool) :
    policy e reg = if reg then .railsOff else .discard := by
  rcases he with rfl | rfl <;> cases reg <;> rfl

/-! ### SVC (R172) -/

theorem service_of_clear {e : Event} {s : State} (h : s.flag e = false) : service e s = s := by
  rcases service_cases e s with ⟨_, hs⟩ | ⟨hset, _⟩
  · rw [hs, evTake_of_clear h]
  · simp [h] at hset

theorem service_of_set {e : Event} {s : State} (h : s.flag e = true) :
    service e s = applyAction (policy e s.reg) (evTake e s).2 := by
  rcases service_cases e s with ⟨hclear, _⟩ | ⟨_, hs⟩
  · simp [h] at hclear
  · exact hs

theorem service_request_off {e : Event} {s : State} (h : s.flag e = true)
    (he : e = .buttonPress ∨ e = .companionPowerRequest) (hreg : s.reg = false) :
    service e s = regSet true (evTake e s).2 := by
  rw [service_of_set h, policy_of_request he, hreg]
  rfl

theorem service_request_on {e : Event} {s : State} (h : s.flag e = true)
    (he : e = .buttonPress ∨ e = .companionPowerRequest) (hreg : s.reg = true) :
    service e s = plSend (evTake e s).2 := by
  rw [service_of_set h, policy_of_request he, hreg]
  rfl

theorem service_shutdown_off {e : Event} {s : State} (h : s.flag e = true)
    (he : e = .buttonHold ∨ e = .companionShutdownComplete) (hreg : s.reg = false) :
    service e s = (evTake e s).2 := by
  rw [service_of_set h, policy_of_shutdown he, hreg]
  rfl

theorem service_shutdown_on {e : Event} {s : State} (h : s.flag e = true)
    (he : e = .buttonHold ∨ e = .companionShutdownComplete) (hreg : s.reg = true) :
    service e s = regSet false (evTake e s).2 := by
  rw [service_of_set h, policy_of_shutdown he, hreg]
  rfl

/-! ### The obligation -/

/-- Settles O32: the next state of SVC is `service e s`, which each row of the table equates with the row's
sub-operation on the state EVTAKE leaves. -/
theorem svcPerformsTheActionOfThePolicyTable : Obligations.SvcPerformsTheActionOfThePolicyTable := by
  intro e s taken request shutdown
  have hevf : taken.evf = s.evf &&& ~~~ eventMask e := congrArg State.evf (evTake_frame e s)
  refine ⟨hevf, service e s, exec_eq_effect (.svc e) s, service_of_clear, ?_, ?_, ?_, ?_⟩
  · intro hset he hreg
    rw [service_request_off hset he hreg]
    exact ⟨exec_eq_effect (.regset true) taken, regSet_reg true taken⟩
  · intro hset he hreg
    rw [service_request_on hset he hreg]
    exact ⟨exec_eq_effect .plsend taken, by rw [plSend_reg, evTake_reg, hreg]⟩
  · intro hset he hreg
    rw [service_shutdown_off hset he hreg]
    exact ⟨rfl, by rw [evTake_reg, hreg]⟩
  · intro hset he hreg
    rw [service_shutdown_on hset he hreg]
    exact ⟨exec_eq_effect (.regset false) taken, regSet_reg false taken⟩

end Machine
end Sys2Proof
end

-- ==== TICK (spec/46_async_agents.md R190) ====
section
/-! PROOF. What TICK does to the counter, its rollover, and the obligation about it. -/

namespace Sys2Proof

theorem encode_tick : encode .tick = 0xA0000000#32 := rfl

namespace Machine

/-- TICK in whole: the next count modulo 2^32, and every other field as it was. -/
theorem tick_eq (s : State) : tick s = { s with millis := BitVec.ofNat 32 ((s.millis.toNat + 1) % 2 ^ 32) } :=
  congrArg s.setMillis (add32_one s.millis)

/-- The counter rolls over from its greatest value to 0. -/
theorem tick_of_millis_max {s : State} (h : s.millis = 0xFFFFFFFF#32) : tick s = { s with millis := 0#32 } := by
  rw [tick_eq, h]
  rfl

/-- Settles O36: the next state of TICK is `tick s`, with `tick_eq` for every count and `tick_of_millis_max` for the
rollover. -/
theorem tickAdvancesTheCounter : Obligations.TickAdvancesTheCounter := by
  intro s
  have hexec : exec .tick s = .next (tick s) := exec_eq_effect .tick s
  exact ⟨encode_tick, hexec.trans (congrArg Host.Outcome.next (tick_eq s)),
    fun hmax => hexec.trans (congrArg Host.Outcome.next (tick_of_millis_max hmax))⟩

end Machine
end Sys2Proof
end

-- ==== What each operation leaves unchanged (spec/10_state.md section 1) ====
section
/-! PROOF. One frame per operation, the rows of SVC, and the obligations that follow from them: the writers of each
register, the causes of a fault, and what lowers PowerPulseOut. -/

namespace Sys2Proof
namespace Machine

/-! ### Frames -/

theorem raise_eq_recorded (r : FaultRecord) (s : State) : raise r s = { s with fault := recorded r s.fault } :=
  raise_eq r s

theorem plSend_frame (s : State) :
    plSend s =
      { s with
        lines := { s.lines with powerPulseOut := (plSend s).lines.powerPulseOut }
        pls := (plSend s).pls
        fault := (plSend s).fault } := by
  cases h : s.pls.active with
  | true => rw [plSend_active h, raise_eq]
  | false => rw [plSend_inactive h]

theorem plPoll_frame (s : State) :
    plPoll s =
      { s with
        lines := { s.lines with powerPulseOut := (plPoll s).lines.powerPulseOut }
        pls := (plPoll s).pls } := by
  cases h : pulseDone s.pls s.millis with
  | true => rw [plPoll_done h]
  | false => rw [plPoll_not_done h]

theorem ledSet_frame (i : LedIndex) (c : LedColor) (s : State) :
    ledSet i c s = { s with mem := (ledSet i c s).mem, fault := (ledSet i c s).fault } := by
  by_cases h : i.toNat < Config.ledCount
  · rw [ledSet_inRange h]
    rfl
  · rw [ledSet_outOfRange h, raise_eq]

theorem emitIfAny_frame (ev : Option Event) (s : State) :
    emitIfAny ev s = { s with evf := (emitIfAny ev s).evf, evtrace := (emitIfAny ev s).evtrace } := by
  cases ev <;> rfl

theorem debpoll_frame (s : State) :
    effect .debpoll s =
      { s with
        deb := (debounce s.deb s.inputs.powerButton s.millis).1
        evf := (effect .debpoll s).evf
        evtrace := (effect .debpoll s).evtrace } :=
  emitIfAny_frame _ _

theorem edge_frame (e : Event) (s : State) :
    edge e s = { s with evf := (edge e s).evf, evtrace := (edge e s).evtrace, fault := (edge e s).fault } := by
  unfold edge
  split
  · rfl
  · rw [raise_eq]

theorem applyAction_frame (a : PolicyAction) (s : State) :
    applyAction a s =
      { s with
        lines := (applyAction a s).lines
        mem := (applyAction a s).mem
        ledtrace := (applyAction a s).ledtrace
        reg := (applyAction a s).reg
        pls := (applyAction a s).pls
        fault := (applyAction a s).fault } := by
  cases a with
  | railsOn | railsOff => simp only [applyAction]; rw [regSet_frame]
  | sendPulse => simp only [applyAction]; rw [plSend_frame]
  | discard => rfl

/-- SVC acts on the flags as its EVTAKE does, and beyond that writes what REGSET and PLSEND write. -/
theorem service_frame (e : Event) (s : State) :
    service e s =
      { s with
        evf := (evTake e s).2.evf
        evtrace := (evTake e s).2.evtrace
        lines := (service e s).lines
        mem := (service e s).mem
        ledtrace := (service e s).ledtrace
        reg := (service e s).reg
        pls := (service e s).pls
        fault := (service e s).fault } := by
  rcases service_cases e s with ⟨_, h⟩ | ⟨_, h⟩
  · rw [h, evTake_snd]
  · rw [h, applyAction_frame, evTake_snd]

/-- No operation moves `phase`, the input levels or the agenda. -/
theorem effect_frame (i : Instr) (s : State) :
    effect i s = { effect i s with phase := s.phase, inputs := s.inputs, agenda := s.agenda } := by
  cases i with
  | evset e => rfl
  | evtake e => simp only [effect, evTake_snd]
  | debpoll => rw [debpoll_frame]
  | plsend => simp only [effect]; rw [plSend_frame]
  | plpoll => simp only [effect]; rw [plPoll_frame]
  | ledset n c => simp only [effect]; rw [ledSet_frame]
  | ledshow => rfl
  | regset en => simp only [effect]; rw [regSet_frame]
  | svc e => simp only [effect]; rw [service_frame]
  | tick => rfl
  | edge e => simp only [effect]; rw [edge_frame]

@[simp] theorem effect_phase (i : Instr) (s : State) : (effect i s).phase = s.phase := by rw [effect_frame]
@[simp] theorem effect_inputs (i : Instr) (s : State) : (effect i s).inputs = s.inputs := by rw [effect_frame]
@[simp] theorem effect_agenda (i : Instr) (s : State) : (effect i s).agenda = s.agenda := by rw [effect_frame]

/-- Settles O40: in each operation's frame the fields it may write are those the summary table names for it. -/
theorem eachRegisterHasItsWriters : Obligations.EachRegisterHasItsWriters := by
  intro i s t ht
  obtain rfl := (exec_next_iff i s t).mp ht
  simp only [effect_phase, effect_inputs, effect_agenda, and_self, and_true]
  cases i with
  | evset e => simp [effect, evSet_eq]
  | evtake e => simp [effect, evTake_snd]
  | debpoll => rw [debpoll_frame]; simp
  | plsend => simp only [effect]; rw [plSend_frame]; simp
  | plpoll => simp only [effect]; rw [plPoll_frame]; simp
  | ledset n c => simp only [effect]; rw [ledSet_frame]; simp
  | ledshow => simp [effect, ledShow_eq]
  | regset en => simp only [effect]; rw [regSet_frame]; simp
  | svc e => simp only [effect]; rw [service_frame]; simp
  | tick => simp [effect, tick_eq]
  | edge e => simp only [effect]; rw [edge_frame]; simp

end Machine
end Sys2Proof
end

-- ==== Operation words (spec/30_encoding.md R80 to R82) ====
section
/-! PROOF. The decoder by the rows of the opcode map: a word decodes exactly as the row it matches says. From it the
two round trips, the map's claims and the illegal words. -/

namespace Sys2Proof

/-! ### What the match of a row says of a word's fields -/

/-- Where the mask is all ones, a matching word has the field of the pattern. -/
theorem extractLsb'_of_match {w mask pattern : Word} (h : w &&& mask = pattern) (start len : Nat)
    (hmask : mask.extractLsb' start len = BitVec.allOnes len) :
    w.extractLsb' start len = pattern.extractLsb' start len := by
  rw [← h, BitVec.extractLsb'_and, hmask, BitVec.and_allOnes]

/-- Every row fixes the opcode. -/
theorem opcField_of_match {r : OpRow} (hr : r ∈ opcodeTable) {w : Word} (h : w &&& r.mask = r.pattern) :
    opcField w = opcField r.pattern := by
  have hmask : ∀ r ∈ opcodeTable, r.mask.extractLsb' 28 4 = BitVec.allOnes 4 := by decide
  exact extractLsb'_of_match h 28 4 (hmask r hr)

/-- No two rows share an opcode. -/
theorem row_eq_of_opcField_eq :
    ∀ r ∈ opcodeTable, ∀ r' ∈ opcodeTable, opcField r.pattern = opcField r'.pattern → r = r' := by decide

theorem OpRow.holds_iff (r : OpRow) (w : Word) : r.holds w = true ↔ w &&& r.mask = r.pattern := beq_iff_eq

theorem OpRow.read_eq_ok_iff {r : OpRow} {w : Word} {i j : Instr} :
    r.read w i = .ok j ↔ w &&& r.mask = r.pattern ∧ i = j := by
  rw [OpRow.read, ← OpRow.holds_iff]
  cases r.holds w <;> simp

theorem readEdge_eq_ok_iff {w : Word} {j : Instr} :
    readEdge w = .ok j ↔ w &&& rowEdge.mask = rowEdge.pattern ∧ .edge (Event.ofId (selField w)) = j := by
  rw [readEdge, ← OpRow.holds_iff]
  cases rowEdge.holds w with
  | true => simp
  | false => cases w.getLsbD 27 <;> simp

/-! ### The decoder by rows (R82) -/

/-- The operation of the same row with the operands a word carries (R79). -/
def Instr.withOperandsOf : Instr → Word → Instr
  | .evset _, w => .evset (Event.ofId (selField w))
  | .evtake _, w => .evtake (Event.ofId (selField w))
  | .debpoll, _ => .debpoll
  | .plsend, _ => .plsend
  | .plpoll, _ => .plpoll
  | .ledset _ _, w => .ledset (selField w) (colField w)
  | .ledshow, _ => .ledshow
  | .regset _, w => .regset (enField w)
  | .svc _, w => .svc (Event.ofId (selField w))
  | .tick, _ => .tick
  | .edge _, w => .edge (Event.ofId (selField w))

theorem Instr.row_mem (i : Instr) : i.row ∈ opcodeTable := by
  cases i <;> simp [Instr.row, opcodeTable]

/-- Every row is the row of some operation. -/
theorem exists_row_eq : ∀ r ∈ opcodeTable, ∃ i : Instr, i.row = r := by
  simp only [opcodeTable, List.forall_mem_cons]
  exact ⟨⟨.evset .buttonPress, rfl⟩, ⟨.evtake .buttonPress, rfl⟩, ⟨.debpoll, rfl⟩, ⟨.plsend, rfl⟩, ⟨.plpoll, rfl⟩,
    ⟨.ledset 0#2 0#24, rfl⟩, ⟨.ledshow, rfl⟩, ⟨.regset false, rfl⟩, ⟨.svc .buttonPress, rfl⟩, ⟨.tick, rfl⟩,
    ⟨.edge .buttonPress, rfl⟩, by simp⟩

/-- A word that matches an operation's row decodes to that operation with the word's operands. -/
theorem decode_of_match {i : Instr} {w : Word} (h : w &&& i.row.mask = i.row.pattern) :
    decode w = .ok (i.withOperandsOf w) := by
  have hopc : opcField w = opcField i.row.pattern := opcField_of_match i.row_mem h
  have hread (j : Instr) : i.row.read w j = .ok j := OpRow.read_eq_ok_iff.mpr ⟨h, rfl⟩
  unfold decode
  cases i <;> simp only [Instr.row] at hopc hread <;> rw [hopc]
  case edge e => exact readEdge_eq_ok_iff.mpr ⟨h, rfl⟩
  all_goals exact hread _

/-- A word decodes only to an operation whose row it matches, with the word's operands. -/
theorem match_of_decode {w : Word} {i : Instr} (h : decode w = .ok i) :
    w &&& i.row.mask = i.row.pattern ∧ i.withOperandsOf w = i := by
  unfold decode at h
  split at h
  case h_11 =>
    obtain ⟨hm, rfl⟩ := readEdge_eq_ok_iff.mp h
    exact ⟨hm, rfl⟩
  case h_12 => cases h
  all_goals
    obtain ⟨hm, rfl⟩ := OpRow.read_eq_ok_iff.mp h
    exact ⟨hm, rfl⟩

theorem decodes_iff_match (w : Word) : (∃ i, decode w = .ok i) ↔ ∃ r ∈ opcodeTable, w &&& r.mask = r.pattern := by
  constructor
  · rintro ⟨i, hi⟩
    exact ⟨i.row, i.row_mem, (match_of_decode hi).1⟩
  · rintro ⟨r, hr, hm⟩
    obtain ⟨i, rfl⟩ := exists_row_eq r hr
    exact ⟨_, decode_of_match hm⟩

/-- A refusal names the word it refuses. -/
theorem word_of_decode_error {w : Word} {r : Illegal} (h : decode w = .error r) : r.word = w := by
  have hread {row : OpRow} {i : Instr} (h : row.read w i = .error r) : r.word = w := by
    unfold OpRow.read at h
    split at h <;> cases h
    rfl
  unfold decode at h
  split at h
  case h_11 =>
    unfold readEdge at h
    split at h
    · cases h
    · split at h <;> cases h <;> rfl
  case h_12 => cases h; rfl
  all_goals exact hread h

theorem decode_of_no_match {w : Word} (h : ∀ r ∈ opcodeTable, w &&& r.mask ≠ r.pattern) :
    ∃ r, decode w = .error r ∧ r.word = w := by
  cases hd : decode w with
  | error r => exact ⟨r, rfl, word_of_decode_error hd⟩
  | ok i =>
    obtain ⟨r, hr, hm⟩ := (decodes_iff_match w).mp ⟨i, hd⟩
    exact absurd hm (h r hr)

/-! ### Decoding an encoded operation -/

theorem encode_matches_row {i : Instr} (h : i.wellFormed = true) : encode i &&& i.row.mask = i.row.pattern := by
  have hrow : Laws.RowWord.Statement i := by
    cases i with
    | evset e => exact Laws.RowWord.evset e
    | evtake e => exact Laws.RowWord.evtake e
    | debpoll => exact Laws.RowWord.debpoll
    | plsend => exact Laws.RowWord.plsend
    | plpoll => exact Laws.RowWord.plpoll
    | ledset n c => exact Laws.RowWord.ledset n c
    | ledshow => exact Laws.RowWord.ledshow
    | regset en => exact Laws.RowWord.regset en
    | svc e => exact Laws.RowWord.svc e
    | tick => exact Laws.RowWord.tick
    | edge e => exact Laws.RowWord.edge e
  exact (OpRow.holds_iff _ _).mp (hrow h).1

/-- The operands an operation's word carries are the operation's. -/
theorem withOperandsOf_encode (i : Instr) : i.withOperandsOf (encode i) = i := by
  cases i <;>
    simp [Instr.withOperandsOf, encode, selField_wordS, selField_wordC, colField_wordC, enField_wordB]

theorem decode_encode {i : Instr} (h : i.wellFormed = true) : decode (encode i) = .ok i := by
  rw [decode_of_match (encode_matches_row h), withOperandsOf_encode]

/-- Settles O1: the word of a well-formed operation matches its row and carries its operands. -/
theorem decodeOfEncodeIsTheInstruction : Obligations.DecodeOfEncodeIsTheInstruction := fun _ => decode_encode

/-! ### Encoding a decoded word -/

/-- A word is its opcode, its selector, the bits 25 and 24, and its colour (R74, R77). -/
theorem word_eq_fields (w : Word) :
    w = (opcField w ++ selField w ++ w.extractLsb' 24 2 ++ w.extractLsb' 0 24 : BitVec 32) := by
  rw [opcField, selField, BitVec.extractLsb'_append_extractLsb'_eq_extractLsb' (show 28 = 26 + 2 from rfl),
    BitVec.extractLsb'_append_extractLsb'_eq_extractLsb' (show 26 = 24 + 2 from rfl),
    BitVec.extractLsb'_append_extractLsb'_eq_extractLsb' (show 24 = 0 + 24 from rfl)]
  exact BitVec.extractLsb'_eq_self.symm

theorem wordN_of_match {r : OpRow} (hr : r ∈ opcodeTable) {w : Word} (h : w &&& r.mask = r.pattern)
    {opc : BitVec 4} (hopc : opcField r.pattern = opc) (hmask : r.mask.extractLsb' 0 28 = BitVec.allOnes 28) (hpat : r.pattern.extractLsb' 0 28 = 0#28) :
    wordN opc = w := by
  have hrest : w.extractLsb' 0 28 = 0#28 := (extractLsb'_of_match h 0 28 hmask).trans hpat
  rw [wordN, ← hopc, ← opcField_of_match hr h, ← hrest, opcField,
    BitVec.extractLsb'_append_extractLsb'_eq_extractLsb' (show 28 = 0 + 28 from rfl)]
  exact BitVec.extractLsb'_eq_self

theorem wordS_of_match {r : OpRow} (hr : r ∈ opcodeTable) {w : Word} (h : w &&& r.mask = r.pattern)
    {opc : BitVec 4} (hopc : opcField r.pattern = opc) (hmask : r.mask.extractLsb' 0 26 = BitVec.allOnes 26) (hpat : r.pattern.extractLsb' 0 26 = 0#26) :
    wordS opc (selField w) = w := by
  have hrest : w.extractLsb' 0 26 = 0#26 := (extractLsb'_of_match h 0 26 hmask).trans hpat
  rw [wordS, ← hopc, ← opcField_of_match hr h, ← hrest, opcField, selField,
    BitVec.extractLsb'_append_extractLsb'_eq_extractLsb' (show 28 = 26 + 2 from rfl),
    BitVec.extractLsb'_append_extractLsb'_eq_extractLsb' (show 26 = 0 + 26 from rfl)]
  exact BitVec.extractLsb'_eq_self

theorem wordC_of_match {w : Word} (h : w &&& rowLedset.mask = rowLedset.pattern) :
    wordC 0x6#4 (selField w) (colField w) = w := by
  have hopc : opcField w = 0x6#4 := opcField_of_match (r := rowLedset) (by decide) h
  have hzero : w.extractLsb' 24 2 = 0#2 := extractLsb'_of_match h 24 2 (by decide)
  conv_rhs => rw [word_eq_fields w, hopc, hzero]
  rw [wordC, colField, BitVec.setWidth_eq, BitVec.setWidth_eq]

theorem ofBool_enField (w : Word) : BitVec.ofBool (enField w) = w.extractLsb' 24 1 := by
  apply BitVec.eq_of_getLsbD_eq
  intro n hn
  obtain rfl : n = 0 := by omega
  simp [enField]

theorem wordB_of_match {w : Word} (h : w &&& rowRegset.mask = rowRegset.pattern) :
    wordB 0x8#4 (enField w) = w := by
  have hopc : opcField w = 0x8#4 := opcField_of_match (r := rowRegset) (by decide) h
  have hhigh : w.extractLsb' 25 3 = 0#3 := extractLsb'_of_match h 25 3 (by decide)
  have hlow : w.extractLsb' 0 24 = 0#24 := extractLsb'_of_match h 0 24 (by decide)
  rw [wordB, ← hopc, ← hhigh, ← hlow, ofBool_enField, opcField,
    BitVec.extractLsb'_append_extractLsb'_eq_extractLsb' (show 28 = 25 + 3 from rfl),
    BitVec.extractLsb'_append_extractLsb'_eq_extractLsb' (show 25 = 24 + 1 from rfl),
    BitVec.extractLsb'_append_extractLsb'_eq_extractLsb' (show 24 = 0 + 24 from rfl)]
  exact BitVec.extractLsb'_eq_self

/-- A word of an operation's row is the word of that operation with the word's operands. -/
theorem encode_withOperandsOf {i : Instr} {w : Word} (h : w &&& i.row.mask = i.row.pattern) :
    encode (i.withOperandsOf w) = w := by
  have hmem := i.row_mem
  cases i <;> simp only [Instr.row] at h hmem <;> simp only [Instr.withOperandsOf, encode, Event.id_ofId]
  case ledset => exact wordC_of_match h
  case regset => exact wordB_of_match h
  case debpoll | plsend | plpoll | ledshow | tick => exact wordN_of_match hmem h rfl rfl rfl
  all_goals exact wordS_of_match hmem h rfl rfl rfl

/-- EDGE's words have bit 27 set (R81). -/
theorem getLsbD_27_of_match {w : Word} (h : w &&& rowEdge.mask = rowEdge.pattern) : w.getLsbD 27 = true := by
  have hbit : (w &&& rowEdge.mask).getLsbD 27 = true := by rw [h]; rfl
  rw [BitVec.getLsbD_and, Bool.and_eq_true] at hbit
  exact hbit.1

/-- So their event is a companion event. -/
theorem isCompanion_of_match {w : Word} (h : w &&& rowEdge.mask = rowEdge.pattern) :
    (Event.ofId (selField w)).isCompanion = true := by
  have hsel : ∀ sel : BitVec 2, sel.getLsbD 1 = true → (Event.ofId sel).isCompanion = true := by decide
  apply hsel
  simpa [selField] using getLsbD_27_of_match h

theorem wellFormed_withOperandsOf {i : Instr} {w : Word} (h : w &&& i.row.mask = i.row.pattern) :
    (i.withOperandsOf w).wellFormed = true := by
  cases i with
  | edge e => exact isCompanion_of_match h
  | _ => rfl

/-- Settles O2: the word matches the operation's row, whose operation with the word's operands has that word. -/
theorem encodeOfDecodeIsTheWord : Obligations.EncodeOfDecodeIsTheWord := by
  intro w i hd
  obtain ⟨hm, hi⟩ := match_of_decode hd
  rw [← hi]
  exact ⟨encode_withOperandsOf hm, wellFormed_withOperandsOf hm⟩

/-! ### The map and the illegal words -/

/-- Settles O3: the decoder by rows, and the rows' opcodes, no two alike. -/
theorem wordIsAnOperationIffOneRowMatches : Obligations.WordIsAnOperationIffOneRowMatches := by
  refine ⟨rfl, fun w => ⟨decodes_iff_match w, fun i hi => (match_of_decode hi).1, ?_⟩⟩
  intro r hr r' hr' hm hm'
  exact row_eq_of_opcField_eq r hr r' hr' ((opcField_of_match hr hm).symm.trans (opcField_of_match hr' hm'))

/-- Words with an opcode of no row (R81). -/
theorem no_match_of_reserved_opcode {w : Word} (h : opcField w = 0x0#4 ∨ 0xC ≤ (opcField w).toNat) :
    ∀ r ∈ opcodeTable, w &&& r.mask ≠ r.pattern := by
  intro r hr hm
  have hrows : ∀ r ∈ opcodeTable, ¬ (opcField r.pattern = 0x0#4 ∨ 0xC ≤ (opcField r.pattern).toNat) := by decide
  rw [opcField_of_match hr hm] at h
  exact hrows r hr h

/-- Words with EDGE's opcode and a button event (R81). -/
theorem no_match_of_button_edge {w : Word} (hopc : opcField w = 0xB#4) (hbit : w.getLsbD 27 = false) :
    ∀ r ∈ opcodeTable, w &&& r.mask ≠ r.pattern := by
  intro r hr hm
  rw [opcField_of_match hr hm] at hopc
  obtain rfl : r = rowEdge := row_eq_of_opcField_eq r hr rowEdge (by decide) hopc
  rw [getLsbD_27_of_match hm] at hbit
  cases hbit

/-- A word with a row's opcode matches that row or none. -/
theorem no_match_of_reserved_bits {w : Word} {r : OpRow} (hr : r ∈ opcodeTable) (hopc : opcField w = opcField r.pattern)
    (hm : w &&& r.mask ≠ r.pattern) : ∀ r' ∈ opcodeTable, w &&& r'.mask ≠ r'.pattern := by
  intro r' hr' hm'
  obtain rfl : r = r' := row_eq_of_opcField_eq r hr r' hr' (hopc.symm.trans (opcField_of_match hr' hm'))
  exact hm hm'

theorem ledset_three_word (c : LedColor) : (0x6C#8 ++ c : BitVec 32) = encode (.ledset 3#2 c) := by
  have hhigh : (0x6#4 ++ 3#2 ++ 0#2 : BitVec 8) = 0x6C#8 := by decide
  rw [encode, wordC, hhigh, BitVec.setWidth_eq]

namespace Machine

/-- An illegal word raises IllegalOperation with the word (60_exceptions.md R201). -/
theorem runWord_of_no_match {w : Word} (h : ∀ r ∈ opcodeTable, w &&& r.mask ≠ r.pattern) (s : State) :
    runWord w s = .next { s with fault := recorded (.illegalOperation w) s.fault } := by
  obtain ⟨r, hd, rfl⟩ := decode_of_no_match h
  rw [runWord, hd, ← raise_eq_recorded]

/-- The words of the running block: the program's, TICK and the two EDGE. -/
theorem running_words_decode :
    ∀ w ∈ loopProgram ++ [0xA0000000#32, 0xB8000000#32, 0xBC000000#32], ∃ i, decode w = .ok i := by
  simp only [loopProgram, List.cons_append, List.nil_append, List.forall_mem_cons]
  exact ⟨⟨_, rfl⟩, ⟨_, rfl⟩, ⟨_, rfl⟩, ⟨_, rfl⟩, ⟨_, rfl⟩, ⟨_, rfl⟩, ⟨_, rfl⟩, ⟨_, rfl⟩, ⟨_, rfl⟩, by simp⟩

/-- Settles O4: a word no row matches is refused by name with the word, and each class of R81 is one of such words. -/
theorem illegalWordRaisesIllegalOperation : Obligations.IllegalWordRaisesIllegalOperation := by
  refine ⟨fun w s h => runWord_of_no_match h s, fun w => no_match_of_reserved_opcode,
    fun w => no_match_of_button_edge, fun w r => no_match_of_reserved_bits,
    fun w hw => (decodes_iff_match w).mp (running_words_decode w hw), fun c => ?_⟩
  rw [ledset_three_word]
  exact decode_encode rfl

/-- Settles O5: the decoder evaluated on each of the words. -/
theorem exampleWordsOfTheMapDecode : Obligations.ExampleWordsOfTheMapDecode :=
  ⟨rfl, rfl, rfl, rfl, rfl, rfl, rfl, rfl, rfl, rfl, rfl, rfl, rfl, rfl, rfl, rfl, rfl⟩

end Machine
end Sys2Proof
end

-- ==== One poll and runs of polls (spec/41_debouncer.md R113 to R119) ====
section
/-! PROOF. The rows of the transition table as equations of `debounce`, and from them the obligations about the order,
the number and the times of the button events, and the time of the pulse's end. -/

namespace Sys2Proof
namespace Machine

/-! ### The rows of the table (R113) -/

theorem sub32_self (a : Stamp) : (sub32 a a).toNat = 0 := by
  rw [show sub32 a a = 0 from BitVec.sub_self a]
  rfl

theorem debounce_of_change {d : Debouncer} {level : Level} (h : level ≠ d.lastLevel) (now : Stamp) :
    debounce d level now = (⟨level, now, .released⟩, none) := by
  rw [debounce, noteLevel, if_pos h, advancePress_eq]
  simp [pressDue, holdDue, sub32_self]

theorem debounce_of_steady {d : Debouncer} {level : Level} (h : level = d.lastLevel) (now : Stamp) :
    debounce d level now = advancePress d now := by
  rw [debounce, noteLevel, if_neg (not_not.mpr h)]

theorem debounce_of_high {d : Debouncer} (h : d.lastLevel = true) (now : Stamp) :
    debounce d true now = (d, none) := by
  rw [debounce_of_steady h.symm, advancePress_eq]
  simp [pressDue, holdDue, h]

theorem debounce_of_released {d : Debouncer} (hl : d.lastLevel = false) (hs : d.state = .released) (now : Stamp) :
    debounce d false now =
      if 10 ≤ (sub32 now d.ltt).toNat then ({ d with state := .pressed }, some .buttonPress) else (d, none) := by
  have hlong : 2000 ≤ (sub32 now d.ltt).toNat → 10 ≤ (sub32 now d.ltt).toNat := Nat.le_trans (by decide)
  rw [debounce_of_steady hl.symm, advancePress_eq]
  by_cases h : 10 ≤ (sub32 now d.ltt).toNat
  · simp [pressDue, hl, hs, h]
  · simp [pressDue, holdDue, hl, hs, h, mt hlong h]

theorem debounce_of_pressed {d : Debouncer} (hl : d.lastLevel = false) (hs : d.state = .pressed) (now : Stamp) :
    debounce d false now =
      if 2000 ≤ (sub32 now d.ltt).toNat then ({ d with state := .held }, some .buttonHold) else (d, none) := by
  rw [debounce_of_steady hl.symm, advancePress_eq]
  simp [pressDue, holdDue, hl, hs]

theorem debounce_of_held {d : Debouncer} (hl : d.lastLevel = false) (hs : d.state = .held) (now : Stamp) :
    debounce d false now = (d, none) := by
  rw [debounce_of_steady hl.symm, advancePress_eq]
  simp [pressDue, holdDue, hs]

/-- Settles O15: the rows, one by one. -/
theorem debounceFollowsTheTransitionTable : Obligations.DebounceFollowsTheTransitionTable := by
  intro d level now elapsed
  refine ⟨fun h => debounce_of_change h now, fun h htrue => ?_, fun h hfalse => ?_⟩
  · rw [htrue]
    exact debounce_of_high (h.symm.trans htrue) now
  · have hl : d.lastLevel = false := h.symm.trans hfalse
    rw [hfalse]
    refine ⟨fun hs hlt => ?_, fun hs hle => ?_, fun hs hlt => ?_, fun hs hle => ?_, fun hs => debounce_of_held hl hs now⟩
    · rw [debounce_of_released hl hs, if_neg (Nat.not_le.mpr hlt)]
    · rw [debounce_of_released hl hs, if_pos hle]
    · rw [debounce_of_pressed hl hs, if_neg (Nat.not_le.mpr hlt)]
    · rw [debounce_of_pressed hl hs, if_pos hle]

/-! ### The poll that emits an event (R114) -/

/-- A poll emits nothing, or it finds the pressed level steady and advances one state. -/
theorem debounce_cases (d : Debouncer) (level : Level) (now : Stamp) :
    (debounce d level now).2 = none ∨
    (level = false ∧ d.lastLevel = false ∧ d.state = .released ∧ 10 ≤ (sub32 now d.ltt).toNat ∧
      debounce d level now = ({ d with state := .pressed }, some .buttonPress)) ∨
    (level = false ∧ d.lastLevel = false ∧ d.state = .pressed ∧ 2000 ≤ (sub32 now d.ltt).toNat ∧
      debounce d level now = ({ d with state := .held }, some .buttonHold)) := by
  by_cases h : level = d.lastLevel
  · rw [debounce_of_steady h]
    rcases advancePress_cases d now with he | ⟨hl, hs, hlong, he⟩ | ⟨hl, hs, hlong, he⟩
    · exact .inl (by rw [he])
    · exact .inr (.inl ⟨h.trans hl, hl, hs, (geU_iff _ _).mp hlong, he⟩)
    · exact .inr (.inr ⟨h.trans hl, hl, hs, (geU_iff _ _).mp hlong, he⟩)
  · exact .inl (by rw [debounce_of_change h])

theorem of_debounce_press {d : Debouncer} {level : Level} {now : Stamp}
    (h : (debounce d level now).2 = some .buttonPress) : 10 ≤ (sub32 now d.ltt).toNat := by
  rcases debounce_cases d level now with hn | ⟨_, _, _, hlong, _⟩ | ⟨_, _, _, _, he⟩
  · simp [hn] at h
  · exact hlong
  · simp [he] at h

theorem of_debounce_hold {d : Debouncer} {level : Level} {now : Stamp}
    (h : (debounce d level now).2 = some .buttonHold) :
    level = false ∧ d.lastLevel = false ∧ d.state = .pressed ∧ 2000 ≤ (sub32 now d.ltt).toNat ∧
      (debounce d level now).1 = { d with state := .held } := by
  rcases debounce_cases d level now with hn | ⟨_, _, _, _, he⟩ | ⟨hlevel, hl, hs, hlong, he⟩
  · simp [hn] at h
  · simp [he] at h
  · exact ⟨hlevel, hl, hs, hlong, by rw [he]⟩

/-- Settles O16: the poll that emits ButtonHold is the last case of `debounce_cases`; after two seconds the row of
Released and then the row of Pressed apply. -/
theorem pressComesBeforeHold : Obligations.PressComesBeforeHold := by
  refine ⟨fun d level now h => ?_, fun d now later hl hs hnow hlater => ?_⟩
  · obtain ⟨hlevel, hl, hs, -, hd⟩ := of_debounce_hold h
    exact ⟨hlevel, hl, hs, by rw [hd]⟩
  · rw [debounce_of_released hl hs, if_pos (Nat.le_trans (by decide) hnow)]
    have hnext := debounce_of_pressed (d := { d with state := .pressed }) hl rfl later
    exact ⟨rfl, by rw [hnext, if_pos hlater]⟩

/-! ### A run of polls while the button stays down (R114, R115) -/

theorem pollAll_of_held {d : Debouncer} (hl : d.lastLevel = false) (hs : d.state = .held) (times : List Stamp) :
    (pollAll false times d).2 = [] := by
  induction times with
  | nil => rfl
  | cons now rest ih => simpa [pollAll, debounce_of_held hl hs] using ih

theorem pollAll_of_pressed {d : Debouncer} (hl : d.lastLevel = false) (hs : d.state = .pressed) (times : List Stamp) :
    (pollAll false times d).2 = [] ∨ (pollAll false times d).2 = [.buttonHold] := by
  induction times with
  | nil => exact .inl rfl
  | cons now rest ih =>
    rw [pollAll, debounce_of_pressed hl hs]
    split
    · right
      simp [pollAll_of_held (d := { d with state := .held }) hl rfl rest]
    · simpa using ih

theorem pollAll_of_released {d : Debouncer} (hl : d.lastLevel = false) (hs : d.state = .released)
    (times : List Stamp) :
    (pollAll false times d).2 = [] ∨ (pollAll false times d).2 = [.buttonPress] ∨
      (pollAll false times d).2 = [.buttonPress, .buttonHold] := by
  induction times with
  | nil => exact .inl rfl
  | cons now rest ih =>
    rw [pollAll, debounce_of_released hl hs]
    split
    · right
      simpa using pollAll_of_pressed (d := { d with state := .pressed }) hl rfl rest
    · simpa using ih

/-- The first poll of a press notes the change and emits nothing. -/
theorem pollAll_of_change {d : Debouncer} (hl : d.lastLevel = true) (times : List Stamp) :
    (pollAll false times d).2 = [] ∨ (pollAll false times d).2 = [.buttonPress] ∨
      (pollAll false times d).2 = [.buttonPress, .buttonHold] := by
  cases times with
  | nil => exact .inl rfl
  | cons now rest =>
    rw [pollAll, debounce_of_change (by simp [hl])]
    exact pollAll_of_released rfl rfl rest

theorem pollAll_cases (d : Debouncer) (times : List Stamp) :
    (pollAll false times d).2 = [] ∨ (pollAll false times d).2 = [.buttonPress] ∨
      (pollAll false times d).2 = [.buttonPress, .buttonHold] ∨ (pollAll false times d).2 = [.buttonHold] := by
  cases hl : d.lastLevel with
  | true =>
    have := pollAll_of_change hl times
    tauto
  | false =>
    cases hs : d.state with
    | released =>
      have := pollAll_of_released hl hs times
      tauto
    | pressed =>
      have := pollAll_of_pressed hl hs times
      tauto
    | held => exact .inl (pollAll_of_held hl hs times)

/-- Settles O17: whatever the times, the events are one of the four lists of `pollAll_cases`. -/
theorem onePressAndOneHoldPerPress : Obligations.OnePressAndOneHoldPerPress := by
  intro d times
  refine ⟨?_, ?_, fun hl => pollAll_of_change hl times⟩ <;>
    rcases pollAll_cases d times with h | h | h | h <;> rw [h] <;> decide

/-! ### The times of the events (R117, R119) -/

/-- Settles O18: the elapsed time is `sub32_after`, and each threshold that of the row of Released, of Pressed, and of
`pulseDone_iff`. -/
theorem elapsedTimeSurvivesRollover : Obligations.ElapsedTimeSurvivesRollover := by
  intro stamp n hn
  have helapsed : (sub32 (stamp + BitVec.ofNat 32 n) stamp).toNat = n := sub32_after stamp hn
  refine ⟨helapsed, ?_, ?_, ?_⟩
  · rw [debounce_of_released rfl rfl, helapsed]
    split <;> simp [*]
  · rw [debounce_of_pressed rfl rfl, helapsed]
    split <;> simp [*]
  · rw [pulseDone_iff, helapsed]
    simp

/-- A poll at most `g` ticks after one that had not reached a threshold exceeds it by less than `g`. -/
theorem elapsed_lt_of_pollsWithin {stamp earlier later : Stamp} {g limit : Nat} (hg : pollsWithin g earlier later)
    (h : (sub32 earlier stamp).toNat < limit) : (sub32 later stamp).toNat < limit + g := by
  have htriangle := sub32_triangle stamp earlier later
  unfold pollsWithin at hg
  omega

/-- Settles O19: the emitting poll has reached its threshold, by less than the spacing. -/
theorem pressAndHoldComeWithinThePollSpacing : Obligations.PressAndHoldComeWithinThePollSpacing := by
  intro d earlier later g _ hg
  refine ⟨fun hearlier hpress => ⟨of_debounce_press hpress, ?_⟩, fun hearlier hhold => ?_⟩
  · exact Nat.le_sub_one_of_lt (elapsed_lt_of_pollsWithin hg hearlier)
  · obtain ⟨-, -, -, hlong, -⟩ := of_debounce_hold hhold
    exact ⟨hlong, Nat.le_sub_one_of_lt (elapsed_lt_of_pollsWithin hg hearlier)⟩

/-- Settles O22: the poll that ends the pulse has reached its duration, by less than the spacing. -/
theorem pulseEndsWithinThePollSpacing : Obligations.PulseEndsWithinThePollSpacing := by
  intro p earlier later g hg hearlier hdone
  obtain ⟨-, hlong⟩ := (pulseDone_iff p later).mp hdone
  exact ⟨hlong, Nat.le_sub_one_of_lt (elapsed_lt_of_pollsWithin hg hearlier)⟩

end Machine
end Sys2Proof
end

-- ==== What a step is made of (spec/20_memory.md R61) ====
section
/-! PROOF. A step is a turn taken and at most one operation: the one inversion the statements about steps use. -/

namespace Sys2Proof
namespace Machine

/-- `u` is `s` with a turn taken: at most the input levels and the agenda, the model's own fields, differ. -/
def turnTaken (s u : State) : Prop := ∃ levels turns, u = { s with inputs := levels, agenda := turns }

theorem turnTaken_popTurn (s : State) : turnTaken s (popTurn s) := ⟨_, _, rfl⟩

theorem turnTaken_setInputs (s : State) (levels : InputLines) : turnTaken s ((popTurn s).setInputs levels) :=
  ⟨_, _, rfl⟩

/-- A step takes a turn, then does nothing more, or one operation, or one operation of the program with its advance, or
raises IllegalOperation. -/
theorem step_forms {s t : State} (h : step s = .next t) :
    ∃ u, turnTaken s u ∧
      (t = u ∨ (∃ i, t = effect i u) ∨ (∃ i, t = advancePhase (effect i u)) ∨
        ∃ w, t = raise (.illegalOperation w) u) := by
  rcases step_cases h with ⟨_, i, _, _, _, _, rfl⟩ | ⟨_, rfl⟩ | ⟨line, level, _, rfl | ⟨e, _, _, _, rfl⟩⟩ |
    ⟨_, i, _, _, _, rfl⟩ | ⟨_, r, _, _, _, rfl⟩
  · exact ⟨_, turnTaken_popTurn s, .inr (.inr (.inl ⟨i, rfl⟩))⟩
  · exact ⟨_, turnTaken_popTurn s, .inr (.inl ⟨.tick, rfl⟩)⟩
  · exact ⟨_, turnTaken_setInputs s _, .inl rfl⟩
  · exact ⟨_, turnTaken_setInputs s _, .inr (.inl ⟨.edge e, rfl⟩)⟩
  · exact ⟨_, turnTaken_popTurn s, .inr (.inl ⟨i, rfl⟩)⟩
  · exact ⟨_, turnTaken_popTurn s, .inr (.inr (.inr ⟨r.word, rfl⟩))⟩

/-- What a taken turn, every operation, the advance and a raised fault keep, every step keeps. -/
theorem step_keeps {P : State → Prop} (hturn : ∀ s u, turnTaken s u → P s → P u)
    (hop : ∀ i s, P s → P (effect i s)) (hadvance : ∀ s, P s → P (advancePhase s))
    (hraise : ∀ r s, P s → P (raise r s)) {s t : State} (hs : P s) (h : step s = .next t) : P t := by
  obtain ⟨u, hu, rfl | ⟨i, rfl⟩ | ⟨i, rfl⟩ | ⟨w, rfl⟩⟩ := step_forms h
  · exact hturn s _ hu hs
  · exact hop i u (hturn s u hu hs)
  · exact hadvance _ (hop i u (hturn s u hu hs))
  · exact hraise _ u (hturn s u hu hs)

/-- The advance moves `phase` alone. -/
theorem advancePhase_frame (s : State) : advancePhase s = { s with phase := (advancePhase s).phase } := by
  unfold advancePhase
  split <;> rfl

end Machine
end Sys2Proof
end

-- ==== The event trace (spec/40_eventflags.md R102) ====
section
/-! PROOF. What each operation appends to the event trace, that the trace replays to the flags, and what a trace that
does so says of sets and takes. -/

namespace Sys2Proof
namespace Machine

/-! ### A set and a take of different events (20_memory.md R57) -/

theorem clear_after_set_comm {e e' : Event} (h : e ≠ e') (f : FlagSet) :
    (f ||| eventMask e) &&& ~~~ eventMask e' = (f &&& ~~~ eventMask e') ||| eventMask e := by
  have hmask : eventMask e &&& ~~~ eventMask e' = eventMask e := by
    revert h
    cases e <;> cases e' <;> decide
  rw [BitVec.and_or_distrib_right, hmask]

/-- Settles O9: the result is the flag the set leaves as it was; the flags are those of `clear_after_set_comm`. -/
theorem setAndTakeOfDifferentEventsCommute : Obligations.SetAndTakeOfDifferentEventsCommute := by
  intro e e' s h
  refine ⟨?_, ?_⟩
  · rw [evTake_fst, evTake_fst, evSet_flag_other s h.symm]
  · rw [evTake_snd, evSet_eq, evSet_eq, evTake_snd]
    exact clear_after_set_comm h s.evf

/-! ### What an operation appends -/

@[simp] theorem emitIfAny_evtrace (ev : Option Event) (s : State) :
    (emitIfAny ev s).evtrace = s.evtrace ++ ev.toList.map .emitted := by
  cases ev with
  | none => simp [emitIfAny]
  | some e => rfl

theorem evTake_evtrace (e : Event) (s : State) :
    (evTake e s).2.evtrace = s.evtrace ++ observations (.evtake e) s := by
  rw [evTake_snd, observations]
  cases s.flag e <;> simp

theorem edge_evtrace (e : Event) (s : State) : (edge e s).evtrace = s.evtrace ++ observations (.edge e) s := by
  cases e <;> simp [edge, Event.isCompanion, observations, evSet_eq, raise_eq]

theorem effect_evtrace (i : Instr) (s : State) : (effect i s).evtrace = s.evtrace ++ observations i s := by
  have hkeep {t : State} (h : t.evtrace = s.evtrace) : t.evtrace = s.evtrace ++ [] := by rw [h, List.append_nil]
  cases i with
  | evset e => rfl
  | evtake e => exact evTake_evtrace e s
  | debpoll => exact emitIfAny_evtrace _ _
  | plsend => exact hkeep (by simp only [effect]; rw [plSend_frame])
  | plpoll => exact hkeep (by simp only [effect]; rw [plPoll_frame])
  | ledset n c => exact hkeep (by simp only [effect]; rw [ledSet_frame])
  | ledshow => exact hkeep rfl
  | regset en => exact hkeep (by simp only [effect]; rw [regSet_frame])
  | svc e =>
    simp only [effect]
    rw [service_frame]
    exact evTake_evtrace e s
  | tick => exact hkeep rfl
  | edge e => exact edge_evtrace e s

/-- The event of a poll is observed, if there is one. -/
theorem observations_debpoll_cases (s : State) :
    observations .debpoll s = [] ∨
    (s.deb.state = .released ∧ (effect .debpoll s).deb.state = .pressed ∧
      observations .debpoll s = [.emitted .buttonPress]) ∨
    (s.deb.state = .pressed ∧ (effect .debpoll s).deb.state = .held ∧
      observations .debpoll s = [.emitted .buttonHold]) := by
  rw [debpoll_frame, observations]
  rcases debounce_cases s.deb s.inputs.powerButton s.millis with h | ⟨_, _, hs, _, h⟩ | ⟨_, _, hs, _, h⟩
  · exact .inl (by rw [h]; rfl)
  · exact .inr (.inl ⟨hs, by rw [h], by rw [h]; rfl⟩)
  · exact .inr (.inr ⟨hs, by rw [h], by rw [h]; rfl⟩)

theorem observations_le_one (i : Instr) (s : State) : observations i s = [] ∨ ∃ o, observations i s = [o] := by
  have htake (e : Event) : (if s.flag e then [EventObs.taken e] else []) = [] ∨
      ∃ o, (if s.flag e then [EventObs.taken e] else []) = [o] := by
    cases s.flag e <;> simp
  cases i with
  | evset e => exact .inr ⟨_, rfl⟩
  | evtake e | svc e => exact htake e
  | debpoll =>
    rcases observations_debpoll_cases s with h | ⟨_, _, h⟩ | ⟨_, _, h⟩
    · exact .inl h
    · exact .inr ⟨_, h⟩
    · exact .inr ⟨_, h⟩
  | edge e => cases e <;> simp [observations]
  | _ => exact .inl rfl

theorem evtrace_of_effect (i : Instr) (s : State) :
    (effect i s).evtrace = s.evtrace ∨ ∃ o, (effect i s).evtrace = s.evtrace ++ [o] := by
  rw [effect_evtrace]
  rcases observations_le_one i s with h | ⟨o, h⟩
  · exact .inl (by rw [h, List.append_nil])
  · exact .inr ⟨o, by rw [h]⟩

/-- Settles O8: what operations append is `effect_evtrace`; a poll is observed as `observations_debpoll_cases` says; a
step has at most one operation. -/
theorem eventTraceShowsSetsAndTakes : Obligations.EventTraceShowsSetsAndTakes := by
  refine ⟨fun i s => ⟨_, exec_eq_effect i s, effect_evtrace i s⟩, fun s t ht => ?_, fun s t h => ?_⟩
  · obtain rfl := (exec_next_iff .debpoll s t).mp ht
    rcases observations_debpoll_cases s with ho | ⟨hs, hd, ho⟩ | ⟨hs, hd, ho⟩
    · exact ⟨fun _ => ho, .inl ho⟩
    · exact ⟨fun hsame => by simp [hs, hd] at hsame, .inr (.inl ⟨hd, ho⟩)⟩
    · exact ⟨fun hsame => by simp [hs, hd] at hsame, .inr (.inr ⟨hd, ho⟩)⟩
  · obtain ⟨u, hu, ht⟩ := step_forms h
    have htrace : s.evtrace = u.evtrace := by obtain ⟨_, _, rfl⟩ := hu; rfl
    rw [htrace]
    rcases ht with rfl | ⟨i, rfl⟩ | ⟨i, rfl⟩ | ⟨w, rfl⟩
    · exact .inl rfl
    · exact evtrace_of_effect i u
    · rw [advancePhase_frame]
      exact evtrace_of_effect i u
    · exact .inl (by rw [raise_eq])

/-! ### The account of the flags (R102) -/

theorem replay_append (l l' : List EventObs) (f : FlagSet) : replay (l ++ l') f = (replay l f).bind (replay l') := by
  induction l generalizing f with
  | nil => rfl
  | cons o rest ih =>
    cases o with
    | emitted e => exact ih _
    | taken e =>
      simp only [List.cons_append, replay]
      split
      · exact ih _
      · rfl

theorem replay_take (e : Event) (s : State) :
    replay (if s.flag e then [.taken e] else []) s.evf = some (s.evf &&& ~~~ eventMask e) := by
  cases h : s.flag e with
  | true => exact if_pos h
  | false => exact congrArg some (clear_of_clear e s.evf h).symm

theorem emitIfAny_replays (ev : Option Event) (s : State) (d : Debouncer) :
    replay (ev.toList.map .emitted) s.evf = some (emitIfAny ev (s.setDeb d)).evf := by cases ev <;> rfl

theorem edge_replays (e : Event) (s : State) : replay (observations (.edge e) s) s.evf = some (edge e s).evf := by
  cases e <;> simp [edge, Event.isCompanion, observations, evSet_eq, raise_eq, replay]

/-- What an operation appends replays to what it makes of the flags. -/
theorem observations_replay (i : Instr) (s : State) : replay (observations i s) s.evf = some (effect i s).evf := by
  cases i with
  | evset e => rfl
  | evtake e =>
    simp only [effect]
    rw [evTake_frame]
    exact replay_take e s
  | debpoll => exact emitIfAny_replays _ s _
  | plsend => simp only [effect]; rw [plSend_frame]; rfl
  | plpoll => simp only [effect]; rw [plPoll_frame]; rfl
  | ledset n c => simp only [effect]; rw [ledSet_frame]; rfl
  | ledshow => rfl
  | regset en => simp only [effect]; rw [regSet_frame]; rfl
  | svc e =>
    simp only [effect]
    rw [service_frame, evTake_frame]
    exact replay_take e s
  | tick => rfl
  | edge e => exact edge_replays e s

theorem effect_keeps_traceAccounts (i : Instr) {s : State} (h : s.traceAccounts) : (effect i s).traceAccounts := by
  unfold State.traceAccounts at h ⊢
  rw [effect_evtrace, replay_append, h, Option.bind_some, observations_replay]

/-- The account speaks of the flags and the trace alone. -/
theorem traceAccounts_congr {s t : State} (htrace : t.evtrace = s.evtrace) (hevf : t.evf = s.evf)
    (h : s.traceAccounts) : t.traceAccounts := by
  rwa [State.traceAccounts, htrace, hevf]

/-- Settles O10: every part of a step but its operation leaves the flags and the trace, and the operation keeps the
account. -/
theorem stepKeepsTraceAccount : Obligations.StepKeepsTraceAccount := by
  intro s t hs hstep
  refine step_keeps (P := State.traceAccounts) (fun s u hu => ?_) (fun i s => effect_keeps_traceAccounts i) (fun s => ?_)
    (fun r s => ?_) hs hstep
  · obtain ⟨_, _, rfl⟩ := hu
    exact id
  · exact traceAccounts_congr (by rw [advancePhase_frame]) (by rw [advancePhase_frame])
  · exact traceAccounts_congr (by rw [raise_eq]) (by rw [raise_eq])

/-- Settles O11: after power-on the trace is empty and no flag is set. -/
theorem traceAccountAtPowerOn : Obligations.TraceAccountAtPowerOn := by
  intro b
  cases b <;> rfl

/-! ### Sets and takes of a trace that accounts for the flags -/

/-- Over a replay, the takes of an event and the flag left are at most its sets and the flag at the start. -/
theorem takings_add_flag_le (e : Event) {l : List EventObs} {f g : FlagSet} (h : replay l f = some g) :
    takings e l + (g.getLsbD e.id.toNat).toNat ≤ emissions e l + (f.getLsbD e.id.toNat).toNat := by
  induction l generalizing f with
  | nil =>
    cases h
    simp [takings, emissions]
  | cons o rest ih =>
    cases o with
    | emitted e' =>
      have ih' := ih (f := f ||| eventMask e') h
      rw [flag_after_set] at ih'
      by_cases he : e' = e
      · subst he
        simp [takings, emissions] at ih' ⊢
        omega
      · simpa [takings, emissions, he, Ne.symm he] using ih'
    | taken e' =>
      unfold replay at h
      split at h
      case isFalse => cases h
      case isTrue hset =>
      have ih' := ih h
      rw [flag_after_clear] at ih'
      by_cases he : e' = e
      · subst he
        simp [takings, emissions, hset] at ih' ⊢
        omega
      · simpa [takings, emissions, he, Ne.symm he] using ih'

/-- Settles O12: the replay starts from no flag set and ends at the flags. -/
theorem takesNeverExceedSets : Obligations.TakesNeverExceedSets := by
  intro e s h
  have hle := takings_add_flag_le e h
  have hflag : (if s.flag e then 1 else 0) = (s.evf.getLsbD e.id.toNat).toNat := by
    rw [State.flag]
    cases s.evf.getLsbD e.id.toNat <;> rfl
  rw [hflag]
  simpa using hle

/-- A clear flag stays clear over a trace that does not set it. -/
theorem replay_keeps_clear {e : Event} {l : List EventObs} {f g : FlagSet} (h : replay l f = some g)
    (hnone : .emitted e ∉ l) (hclear : f.getLsbD e.id.toNat = false) : g.getLsbD e.id.toNat = false := by
  have hle := takings_add_flag_le e h
  rw [emissions, List.count_eq_zero.mpr hnone, hclear] at hle
  simpa using (Nat.le_zero.mp (Nat.le_trans (Nat.le_add_left _ _) hle))

/-- A replay that takes an event goes on from that flag cleared, and had it set. -/
theorem replay_taken {e : Event} {l : List EventObs} {f g : FlagSet} (h : replay (.taken e :: l) f = some g) :
    f.getLsbD e.id.toNat = true ∧ replay l (f &&& ~~~ eventMask e) = some g := by
  unfold replay at h
  split at h
  · exact ⟨‹_›, h⟩
  · cases h

/-- Settles O13: the first take clears the flag and the second finds it set, so a set of it stands between. -/
theorem betweenTwoTakesThereIsASet : Obligations.BetweenTwoTakesThereIsASet := by
  intro e s before between after h htrace
  rw [State.traceAccounts, htrace, List.append_assoc, List.cons_append, replay_append, Option.bind_eq_some_iff] at h
  obtain ⟨f, -, hf⟩ := h
  obtain ⟨-, hrest⟩ := replay_taken hf
  rw [replay_append, Option.bind_eq_some_iff] at hrest
  obtain ⟨g, hbetween, hg⟩ := hrest
  obtain ⟨hset, -⟩ := replay_taken hg
  by_contra hnone
  have hclear := replay_keeps_clear hbetween hnone (by rw [flag_after_clear]; simp)
  rw [hset] at hclear
  cases hclear

end Machine
end Sys2Proof
end

-- ==== LEDSET, the receiver and the durations of a frame (spec/43_led.md R140, R143, R144, R148) ====
section
/-! PROOF. LEDSET's word and its frame in the buffer; what a receiver reads from a frame, how long it lasts, and which
actual times meet it. -/

namespace Sys2Proof

/-! ### The word of LEDSET (30_encoding.md R77) -/

/-- A format C word is its opcode, its selector and its colour, each at its place. -/
theorem wordC_eq_or (opc : BitVec 4) (sel : BitVec 2) (col : LedColor) :
    wordC opc sel col = (opc.setWidth 32 <<< 28) ||| (sel.setWidth 32 <<< 26) ||| col.setWidth 32 := by
  apply BitVec.eq_of_getLsbD_eq
  intro n hn
  rw [getLsbD_wordC]
  simp only [BitVec.getLsbD_or, BitVec.getLsbD_shiftLeft, BitVec.getLsbD_setWidth]
  by_cases h24 : n < 24
  · simp [h24, hn, show n < 28 by omega, show n < 26 by omega]
  have hcol : col.getLsbD n = false := BitVec.getLsbD_of_ge _ _ (by simpa using h24)
  by_cases h26 : n < 26
  · simp [h24, h26, hcol, show n < 28 by omega]
  by_cases h28 : n < 28
  · simp [h24, h26, h28, hcol, hn, show n - 26 < 32 by omega]
  have hsel : sel.getLsbD (n - 26) = false := BitVec.getLsbD_of_ge _ _ (by omega)
  simp [h24, h26, h28, hcol, hsel, hn, show n - 28 < 32 by omega]

theorem encode_ledset (i : LedIndex) (c : LedColor) :
    encode (.ledset i c) = 0x60000000#32 ||| (i.setWidth 32 <<< 26) ||| c.setWidth 32 :=
  wordC_eq_or 0x6#4 i c

namespace Machine

/-! ### LEDSET (R140) -/

theorem setLed_readByte_outside (s : State) (i : LedIndex) (c : LedColor) {a : Nat}
    (h : a < ledAddr i ∨ ledAddr i + 3 ≤ a) : (s.setLed i c).readByte a = s.readByte a :=
  State.readByte_setLed_other s i c (by omega) (by omega) (by omega)

/-- Settles O24: the two values of LEDSET's check are the two clauses. -/
theorem ledsetWritesItsEntryOrRaisesOutOfRange : Obligations.LedsetWritesItsEntryOrRaisesOutOfRange := by
  intro i c s
  refine ⟨encode_ledset i c, fun hi => ?_, fun hi => ?_⟩
  · have hexec : exec (.ledset i c) s = .next (s.setLed i c) := by
      rw [exec_eq_effect, ← ledSet_inRange hi]
      rfl
    exact ⟨_, hexec, rfl, State.led_setLed_same s i c, fun j hj => State.led_setLed_other s c hj,
      fun a ha => setLed_readByte_outside s i c ha⟩
  · have hout : ¬ i.toNat < Config.ledCount := by rw [hi]; decide
    rw [exec_eq_effect, ← raise_eq_recorded, ← ledSet_outOfRange hout c]
    rfl

/-! ### The receiver (R143) -/

theorem frameToBits_pulses (bits : List Bool) : frameToBits (bits.flatMap pulseSegments) = bits := by
  have hpulse : ∀ b, frameToBits (pulseSegments b) = [b] := by decide
  induction bits with
  | nil => rfl
  | cons b rest ih =>
    calc frameToBits (pulseSegments b ++ rest.flatMap pulseSegments)
        = frameToBits (pulseSegments b) ++ frameToBits (rest.flatMap pulseSegments) := by simp [frameToBits]
      _ = b :: rest := by rw [hpulse, ih]; rfl

/-- The receiver reads the bits that were sent; the latch is no pulse. -/
theorem frameToBits_frameOf (bits : List Bool) : frameToBits (frameOf bits) = bits := by
  have hlatch : frameToBits (frameOf bits) = frameToBits (bits.flatMap pulseSegments) := by
    simp [frameToBits, frameOf, latchSegment]
  rw [hlatch, frameToBits_pulses]

/-- Packing the first `k` bits of a colour gives its upper `k` bits. -/
theorem packColor_take_colorBits (c : LedColor) {k : Nat} (hk : k ≤ 24) :
    packColor ((List.range k).map (fun n => c.getLsbD (23 - n))) = c >>> (24 - k) := by
  induction k with
  | zero =>
    apply BitVec.eq_of_getLsbD_eq
    intro n hn
    simp [packColor]
  | succ k ih =>
    have hprev := ih (by omega)
    rw [packColor, List.range_succ, List.map_append, List.foldl_append, ← packColor, hprev]
    apply BitVec.eq_of_getLsbD_eq
    intro n hn
    have hn' : n < 24 := hn
    cases n with
    | zero => simp [show 24 - (k + 1) = 23 - k by omega]
    | succ n => simp [hn', show 24 - k + n = 24 - (k + 1) + (n + 1) by omega]

theorem packColor_colorBits (c : LedColor) : packColor (colorBits c) = c := by
  have hall := packColor_take_colorBits c (Nat.le_refl 24)
  rwa [Nat.sub_self, BitVec.ushiftRight_zero] at hall

theorem frameBits_eq (s : State) :
    frameBits s = colorBits (s.led 0#2) ++ (colorBits (s.led 1#2) ++ colorBits (s.led 2#2)) := by
  simp [frameBits, ledIndices, Config.ledCount, List.range_succ]

theorem frameToColors_frameBits (s : State) :
    frameToColors (frameOf (frameBits s)) = [s.led 0#2, s.led 1#2, s.led 2#2] := by
  have hthree : List.range Config.ledCount = [0, 1, 2] := rfl
  rw [frameToColors, frameToBits_frameOf, frameBits_eq, hthree]
  simp [Config.colorW, List.drop_append, List.take_of_length_le, List.drop_of_length_le, packColor_colorBits]

theorem getLast?_ledtrace_of_ledshow {s t : State} (h : exec .ledshow s = .next t) :
    t.ledtrace.getLast? = some (frameOf (frameBits s)) := by
  obtain rfl := (exec_next_iff .ledshow s t).mp h
  simp only [effect, ledShow_eq]
  exact List.getLast?_concat

/-- Settles O26: the frame sent is that of the buffer, whose bits the receiver reads and packs. -/
theorem sentFrameDecodesToTheBuffer : Obligations.SentFrameDecodesToTheBuffer := by
  intro s t h
  rw [getLast?_ledtrace_of_ledshow h, Option.map_some, frameToColors_frameBits]

/-! ### Durations (R148) -/

/-- Every pulse requests 1200 ns, and the latch 50 000 ns. -/
theorem frameNs_frameOf (bits : List Bool) : frameNs (frameOf bits) = 1200 * bits.length + 50000 := by
  have hpulse : ∀ b, frameNs (pulseSegments b) = 1200 := by decide
  induction bits with
  | nil => rfl
  | cons b rest ih =>
    have hcons : frameNs (frameOf (b :: rest)) = frameNs (pulseSegments b) + frameNs (frameOf rest) := by
      simp [frameNs, frameOf]
    rw [hcons, hpulse, ih, List.length_cons]
    omega

/-- The line is high 900 ns for a 1 and 300 ns for a 0. -/
theorem frameHighNs_frameOf (bits : List Bool) :
    frameHighNs (frameOf bits) = 900 * bits.countP id + 300 * (bits.length - bits.countP id) := by
  have hpulse : ∀ b, frameHighNs (pulseSegments b) = if b then 900 else 300 := by decide
  induction bits with
  | nil => rfl
  | cons b rest ih =>
    have hcons : frameHighNs (frameOf (b :: rest)) = frameHighNs (pulseSegments b) + frameHighNs (frameOf rest) := by
      simp [frameHighNs, frameOf]
    have hle : rest.countP id ≤ rest.length := List.countP_le_length
    rw [hcons, hpulse, ih]
    cases b <;> simp <;> omega

theorem frameBits_eq_map (s : State) :
    frameBits s = (List.range 72).map (fun n => (s.led (BitVec.ofNat 2 (n / 24))).getLsbD (23 - n % 24)) := by
  apply List.ext_getElem?
  intro n
  by_cases hn : n < 72
  · rw [getElem?_frameBits s hn, List.getElem?_map, List.getElem?_range hn, Option.map_some]
  · rw [List.getElem?_eq_none (by simpa using hn), List.getElem?_eq_none (by simpa using hn)]

theorem countP_frameBits (s : State) : (frameBits s).countP id = litBits s.led := by
  rw [frameBits_eq_map, List.countP_map]
  rfl

/-- Settles O27: a frame has 72 pulses and a latch. -/
theorem frameDurationIsFixed : Obligations.FrameDurationIsFixed := by
  intro s t h
  rw [getLast?_ledtrace_of_ledshow h, Option.map_some, Option.map_some, frameNs_frameOf, frameHighNs_frameOf,
    countP_frameBits, length_frameBits]
  exact ⟨rfl, rfl⟩

/-! ### Actual times (R144) -/

/-- What holds of every segment of the frame of a buffer, at its place, is what holds of the 72 pulses and the
latch. -/
theorem forall_segment_iff {led : LedIndex → LedColor} {f : Frame} (hf : frameShows led f)
    (Q : Nat → Segment → Prop) :
    (∀ n g, f[n]? = some g → Q n g) ↔
      (∀ n, n < 72 →
        Q (2 * n) ⟨true, if (led (BitVec.ofNat 2 (n / 24))).getLsbD (23 - n % 24) then 900 else 300⟩ ∧
        Q (2 * n + 1) ⟨false, if (led (BitVec.ofNat 2 (n / 24))).getLsbD (23 - n % 24) then 300 else 900⟩) ∧
      Q 144 ⟨false, 50000⟩ := by
  obtain ⟨hlen, hpulses, hlatch⟩ := hf
  refine ⟨fun h => ⟨fun n hn => ⟨h _ _ (hpulses n hn).1, h _ _ (hpulses n hn).2⟩, h _ _ hlatch⟩, ?_⟩
  rintro ⟨hQ, hQlatch⟩ m g hg
  have hm : m < 145 := hlen ▸ (List.getElem?_eq_some_iff.mp hg).1
  obtain rfl | ⟨n, hn, rfl | rfl⟩ : m = 144 ∨ ∃ n, n < 72 ∧ (m = 2 * n ∨ m = 2 * n + 1) := by
    by_cases h : m = 144
    · exact .inl h
    · exact .inr ⟨m / 2, by omega, by omega⟩
  · rw [hlatch] at hg
    cases hg
    exact hQlatch
  · rw [(hpulses n hn).1] at hg
    cases hg
    exact (hQ n hn).1
  · rw [(hpulses n hn).2] at hg
    cases hg
    exact (hQ n hn).2

/-- Inside a list, what holds of the element at a place is what holds of some element there. -/
theorem forall_getElem?_iff {l : List Nat} {n : Nat} (hn : n < l.length) (Q : Nat → Prop) :
    (∀ a, l[n]? = some a → Q a) ↔ ∃ a, l[n]? = some a ∧ Q a := by
  simp [List.getElem?_eq_getElem hn]

theorem frameTimesMet_iff {led : LedIndex → LedColor} {f : Frame} (hf : frameShows led f) (tol : Nat)
    (actual : List Nat) :
    frameTimesMet tol f actual ↔
      actual.length = 145 ∧
      (∀ n, n < 72 →
        let bit := (led (BitVec.ofNat 2 (n / 24))).getLsbD (23 - n % 24)
        let high := if bit then 900 else 300
        let low := if bit then 300 else 900
        (∃ a, actual[2 * n]? = some a ∧ a ≤ high + tol ∧ high ≤ a + tol) ∧
        ∃ a, actual[2 * n + 1]? = some a ∧ a ≤ low + tol ∧ low ≤ a + tol) ∧
      ∃ a, actual[144]? = some a ∧ 50000 ≤ a := by
  have hplaces := forall_segment_iff hf (fun n g => ∀ a, actual[n]? = some a →
    if n + 1 = f.length then g.ns ≤ a else a ≤ g.ns + tol ∧ g.ns ≤ a + tol)
  have hlen : f.length = 145 := hf.1
  rw [frameTimesMet, hlen]
  rw [hlen] at hplaces
  refine and_congr_right fun hactual => ?_
  calc (∀ n g a, f[n]? = some g → actual[n]? = some a →
        if n + 1 = 145 then g.ns ≤ a else a ≤ g.ns + tol ∧ g.ns ≤ a + tol)
      ↔ ∀ n g, f[n]? = some g → ∀ a, actual[n]? = some a →
        if n + 1 = 145 then g.ns ≤ a else a ≤ g.ns + tol ∧ g.ns ≤ a + tol :=
        ⟨fun h n g hg a => h n g a hg, fun h n g a hg => h n g hg a⟩
    _ ↔ _ := hplaces
    _ ↔ _ := by
      refine and_congr (forall₂_congr fun n hn => and_congr ?_ ?_) ?_
      · rw [forall_getElem?_iff (by omega)]
        simp only [show ¬ 2 * n + 1 = 145 by omega, if_false]
      · rw [forall_getElem?_iff (by omega)]
        simp only [show ¬ 2 * n + 1 + 1 = 145 by omega, if_false]
      · rw [forall_getElem?_iff (by omega)]
        rfl

theorem delayCycles_le_iff (hz ns c : Nat) : delayCycles hz ns ≤ c ↔ ns * hz ≤ c * 10 ^ 9 := by
  rw [delayCycles]
  omega

/-- Settles O28: the frame sent is that of the buffer, so `frameTimesMet_iff` says which actual times meet it. -/
theorem frameTimesHaveATolerancedPulseAndAMinimumLatch :
    Obligations.FrameTimesHaveATolerancedPulseAndAMinimumLatch := by
  refine ⟨fun s t tol actual h => ?_, delayCycles_le_iff⟩
  obtain rfl := (exec_next_iff .ledshow s t).mp h
  exact ⟨_, congrArg State.ledtrace (ledShow_eq s), frameTimesMet_iff (frameShows_frameBits s) tol actual⟩

end Machine
end Sys2Proof
end

-- ==== The rows of SVC and who causes what (spec/45_controlloop.md R172, spec/60_exceptions.md R200) ====
section
/-! PROOF. PLSEND in its two cases, SVC in its five, and from them the obligations about PowerPulseOut, the causes of a
fault, the bytes of the buffer and the frames. -/

namespace Sys2Proof

theorem encode_svc (e : Event) : encode (.svc e) = 0x90000000#32 ||| (e.id.setWidth 32 <<< 26) :=
  wordS_eq_or 0x9#4 e.id

namespace Machine

/-! ### PLSEND (spec/42_pulse.md R130) -/

theorem plSend_overlap {s : State} (h : s.pls.active = true) :
    plSend s = { s with fault := recorded (.pulseOverlap s.millis) s.fault } := by
  rw [plSend_active h, raise_eq_recorded]

@[simp] theorem plSend_readByte (s : State) (a : Nat) : (plSend s).readByte a = s.readByte a := by
  rw [plSend_frame]
  rfl

/-- Settles O20: the two values of `pls.active` are the two clauses. -/
theorem plsendStartsAPulseOrRaisesOverlap : Obligations.PlsendStartsAPulseOrRaisesOverlap := by
  intro s
  have hexec : exec .plsend s = .next (plSend s) := exec_eq_effect .plsend s
  refine ⟨rfl, fun h => ?_, fun h => ?_, fun t ht a => ?_⟩
  · rw [hexec, plSend_inactive h]
  · rw [hexec, plSend_overlap h]
  · rw [(exec_next_iff .plsend s t).mp ht]
    exact plSend_readByte s a

theorem plSend_keeps_high {s : State} (h : s.lines.powerPulseOut = true) :
    (plSend s).lines.powerPulseOut = true := by
  cases hactive : s.pls.active with
  | true => rwa [plSend_overlap hactive]
  | false => rw [plSend_inactive hactive]

theorem plSend_fault_of_inactive {s : State} (h : s.pls.active = false) : (plSend s).fault = s.fault := by
  rw [plSend_inactive h]

/-! ### SVC (R172, R173) -/

theorem request_or_shutdown (e : Event) :
    (e = .buttonPress ∨ e = .companionPowerRequest) ∨ (e = .buttonHold ∨ e = .companionShutdownComplete) := by
  cases e <;> simp

/-- The five cases of SVC: the flag is clear; or it is set, and the event and `reg` name the row of the policy. -/
theorem service_rows (e : Event) (s : State) :
    service e s = s ∨
    s.flag e = true ∧
      ((s.reg = false ∧ (e = .buttonPress ∨ e = .companionPowerRequest) ∧
          service e s = regSet true (evTake e s).2) ∨
        (s.reg = true ∧ (e = .buttonPress ∨ e = .companionPowerRequest) ∧ service e s = plSend (evTake e s).2) ∨
        (s.reg = true ∧ (e = .buttonHold ∨ e = .companionShutdownComplete) ∧
          service e s = regSet false (evTake e s).2) ∨
        (s.reg = false ∧ (e = .buttonHold ∨ e = .companionShutdownComplete) ∧ service e s = (evTake e s).2)) := by
  cases hset : s.flag e with
  | false => exact .inl (service_of_clear hset)
  | true =>
    refine .inr ⟨rfl, ?_⟩
    rcases request_or_shutdown e with he | he <;> cases hreg : s.reg
    · exact .inl ⟨rfl, he, service_request_off hset he hreg⟩
    · exact .inr (.inl ⟨rfl, he, service_request_on hset he hreg⟩)
    · exact .inr (.inr (.inr ⟨rfl, he, service_shutdown_off hset he hreg⟩))
    · exact .inr (.inr (.inl ⟨rfl, he, service_shutdown_on hset he hreg⟩))

/-- EVTAKE's state from the trace it leaves. -/
theorem evTake_of_evtrace {e : Event} {s : State} {trace : List EventObs} (h : trace = (evTake e s).2.evtrace) :
    ({ s with evf := s.evf &&& ~~~ eventMask e, evtrace := trace } : State) = (evTake e s).2 := by
  rw [h, evTake_frame]

@[simp] theorem service_evtrace (e : Event) (s : State) : (service e s).evtrace = (evTake e s).2.evtrace := by
  rw [service_frame]

/-- Settles O33: the rows of SVC, with what REGSET and PLSEND do to the state EVTAKE leaves. -/
theorem svcFollowsThePowerPolicy : Obligations.SvcFollowsThePowerPolicy := by
  intro e s cleared request shutdown
  have hexec : exec (.svc e) s = .next (service e s) := exec_eq_effect (.svc e) s
  have htaken : ({ s with evf := cleared, evtrace := (service e s).evtrace } : State) = (evTake e s).2 :=
    evTake_of_evtrace (service_evtrace e s)
  refine ⟨encode_svc e, fun hclear => ?_, fun hset he hreg => ?_, fun hset he hreg hpulse => ?_,
    fun hset he hreg hpulse => ?_, fun hset he hreg => ?_, fun hset he hreg => ?_⟩
  · rw [hexec, service_of_clear hclear]
  · refine ⟨_, frameOf (frameBits (writePalette true (evTake e s).2)), hexec, ?_⟩
    rw [htaken, service_request_off hset he hreg]
    exact railsSwitched_regSet true _
  · refine ⟨_, hexec, ?_⟩
    have hsend : service e s = plSend { s with evf := cleared, evtrace := (service e s).evtrace } := by
      rw [htaken, service_request_on hset he hreg]
    exact hsend.trans (plSend_inactive hpulse)
  · refine ⟨_, hexec, ?_⟩
    have hsend : service e s = plSend { s with evf := cleared, evtrace := (service e s).evtrace } := by
      rw [htaken, service_request_on hset he hreg]
    exact hsend.trans (plSend_overlap hpulse)
  · refine ⟨_, frameOf (frameBits (writePalette false (evTake e s).2)), hexec, ?_⟩
    rw [htaken, service_shutdown_on hset he hreg]
    exact railsSwitched_regSet false _
  · exact ⟨_, hexec, (service_shutdown_off hset he hreg).trans htaken.symm⟩

/-! ### What lowers PowerPulseOut -/

@[simp] theorem evTake_lines (e : Event) (s : State) : (evTake e s).2.lines = s.lines := by rw [evTake_snd]

@[simp] theorem regSet_powerPulseOut (en : Bool) (s : State) : (regSet en s).lines.powerPulseOut = s.lines.powerPulseOut := by
  rw [regSet_frame]

theorem service_keeps_high (e : Event) {s : State} (h : s.lines.powerPulseOut = true) :
    (service e s).lines.powerPulseOut = true := by
  have htaken : (evTake e s).2.lines.powerPulseOut = true := by rwa [evTake_lines]
  rcases service_rows e s with hr | ⟨-, ⟨-, -, hr⟩ | ⟨-, -, hr⟩ | ⟨-, -, hr⟩ | ⟨-, -, hr⟩⟩ <;> rw [hr]
  · exact h
  · rwa [regSet_powerPulseOut]
  · exact plSend_keeps_high htaken
  · rwa [regSet_powerPulseOut]
  · exact htaken

/-- Settles O23: the operations that write the line are PLSEND, PLPOLL and SVC, and two of them keep it high. -/
theorem onlyPlpollLowersPowerPulseOut : Obligations.OnlyPlpollLowersPowerPulseOut := by
  intro i s t ht hhigh hlow
  obtain ⟨-, -, -, -, -, -, hwriters, -⟩ := eachRegisterHasItsWriters i s t ht
  have hlowered : t.lines.powerPulseOut ≠ true := by rw [hlow]; decide
  obtain rfl := (exec_next_iff i s t).mp ht
  rcases hwriters (by rwa [hhigh]) with rfl | rfl | ⟨e, rfl⟩
  · exact absurd (plSend_keeps_high hhigh) hlowered
  · rfl
  · exact absurd (service_keeps_high e hhigh) hlowered

/-! ### The causes of a fault (spec/60_exceptions.md R200, R205) -/

@[simp] theorem regSet_fault (en : Bool) (s : State) : (regSet en s).fault = s.fault := by rw [regSet_frame]

@[simp] theorem evTake_fault (e : Event) (s : State) : (evTake e s).2.fault = s.fault := by rw [evTake_snd]

@[simp] theorem evTake_pls (e : Event) (s : State) : (evTake e s).2.pls = s.pls := by rw [evTake_snd]

theorem active_of_plSend_fault {s : State} (h : (plSend s).fault ≠ s.fault) : s.pls.active = true := by
  by_contra hactive
  exact h (plSend_fault_of_inactive (Bool.eq_false_iff.mpr hactive))

theorem service_fault_cause {e : Event} {s : State} (h : (service e s).fault ≠ s.fault) :
    (e = .buttonPress ∨ e = .companionPowerRequest) ∧ s.flag e = true ∧ s.reg = true ∧ s.pls.active = true := by
  rcases service_rows e s with hr | ⟨hset, ⟨-, -, hr⟩ | ⟨hreg, he, hr⟩ | ⟨-, -, hr⟩ | ⟨-, -, hr⟩⟩ <;> rw [hr] at h
  · exact absurd rfl h
  · exact absurd (by rw [regSet_fault, evTake_fault]) h
  · rw [← evTake_fault e s] at h
    exact ⟨he, hset, hreg, evTake_pls e s ▸ active_of_plSend_fault h⟩
  · exact absurd (by rw [regSet_fault, evTake_fault]) h
  · exact absurd (evTake_fault e s) h

theorem index_of_ledSet_fault {n : LedIndex} {c : LedColor} {s : State} (h : (ledSet n c s).fault ≠ s.fault) :
    n = 3#2 := by
  by_contra hn
  have hin : ∀ n : LedIndex, n ≠ 3#2 → n.toNat < Config.ledCount := by decide
  exact h (by rw [ledSet_inRange (hin n hn)]; rfl)

/-- Settles O41: the frames leave `fault` to LEDSET, PLSEND, SVC and EDGE, each with its cause. -/
theorem operationsFaultOnlyForTheNamedCauses : Obligations.OperationsFaultOnlyForTheNamedCauses := by
  intro i s t ht h
  obtain rfl := (exec_next_iff i s t).mp ht
  cases i with
  | evset e => exact absurd rfl h
  | evtake e => exact absurd (evTake_fault e s) h
  | debpoll => exact absurd (by rw [debpoll_frame]) h
  | plsend => exact .inr (.inl ⟨rfl, active_of_plSend_fault h⟩)
  | plpoll => exact absurd (show (plPoll s).fault = s.fault by rw [plPoll_frame]) h
  | ledset n c => exact .inl ⟨c, by rw [index_of_ledSet_fault h]⟩
  | ledshow => exact absurd rfl h
  | regset en => exact absurd (regSet_fault en s) h
  | svc e => exact .inr (.inr (.inl ⟨e, rfl, service_fault_cause h⟩))
  | tick => exact absurd rfl h
  | edge e =>
    refine .inr (.inr (.inr ⟨e, rfl, ?_⟩))
    cases e with
    | buttonPress => exact .inl rfl
    | buttonHold => exact .inr rfl
    | companionPowerRequest | companionShutdownComplete => exact absurd rfl h

/-! ### The bytes an operation changes (spec/20_memory.md R53) -/

theorem readByte_of_mem_eq {s t : State} (h : t.mem = s.mem) (a : Nat) : t.readByte a = s.readByte a :=
  congrArg (fun m => Memory.readByte m a) h

theorem bytes_of_ledSet {n : LedIndex} {c : LedColor} {s : State} {a : Nat}
    (h : (ledSet n c s).readByte a ≠ s.readByte a) : n.toNat < 3 ∧ ledAddr n ≤ a ∧ a < ledAddr n + 3 := by
  by_cases hn : n.toNat < Config.ledCount
  · rw [ledSet_inRange hn] at h
    by_contra hout
    exact h (setLed_readByte_outside s n c (by have : n.toNat < 3 := hn; omega))
  · rw [ledSet_outOfRange hn, raise_eq] at h
    exact absurd rfl h

theorem bytes_of_regSet {en : Bool} {s : State} {a : Nat} (h : (regSet en s).readByte a ≠ s.readByte a) :
    a < ledBytes := by
  by_contra hout
  exact h (regSet_readByte_outside en s (Nat.le_of_not_lt hout))

theorem bytes_of_service {e : Event} {s : State} {a : Nat} (h : (service e s).readByte a ≠ s.readByte a) :
    s.flag e = true ∧ a < ledBytes ∧
      (s.reg = false ∧ (e = .buttonPress ∨ e = .companionPowerRequest) ∨
        s.reg = true ∧ (e = .buttonHold ∨ e = .companionShutdownComplete)) := by
  rcases service_rows e s with hr | ⟨hset, ⟨hreg, he, hr⟩ | ⟨-, -, hr⟩ | ⟨hreg, he, hr⟩ | ⟨-, -, hr⟩⟩ <;> rw [hr] at h
  · exact absurd rfl h
  · rw [← evTake_readByte e s a] at h
    exact ⟨hset, bytes_of_regSet h, .inl ⟨hreg, he⟩⟩
  · exact absurd (by rw [plSend_readByte, evTake_readByte]) h
  · rw [← evTake_readByte e s a] at h
    exact ⟨hset, bytes_of_regSet h, .inr ⟨hreg, he⟩⟩
  · exact absurd (evTake_readByte e s a) h

/-- Settles O30: only LEDSET, REGSET and SVC write the buffer, each in its bytes. -/
theorem bufferChangesOnlyByLedWrites : Obligations.BufferChangesOnlyByLedWrites := by
  intro i s t a ht h
  obtain rfl := (exec_next_iff i s t).mp ht
  cases i with
  | evset e => exact absurd rfl h
  | evtake e => exact absurd (evTake_readByte e s a) h
  | debpoll => exact absurd (readByte_of_mem_eq (by rw [debpoll_frame]) a) h
  | plsend => exact absurd (plSend_readByte s a) h
  | plpoll => exact absurd (plPoll_readByte s a) h
  | ledset n c => exact .inl ⟨n, c, rfl, bytes_of_ledSet h⟩
  | ledshow => exact absurd rfl h
  | regset en => exact .inr (.inl ⟨en, rfl, bytes_of_regSet h⟩)
  | svc e => exact .inr (.inr ⟨e, rfl, bytes_of_service h⟩)
  | tick => exact absurd rfl h
  | edge e => exact absurd (readByte_of_mem_eq (show (edge e s).mem = s.mem by rw [edge_frame]) a) h

/-! ### The frames an operation sends (spec/10_state.md R35) -/

/-- `t` sent no frame since `s`, or one that shows the buffer of `t`. -/
def sendsAtMostItsBuffer (s t : State) : Prop :=
  t.ledtrace = s.ledtrace ∨ ∃ f, t.ledtrace = s.ledtrace ++ [f] ∧ frameShows t.led f

theorem regSet_ledtrace (en : Bool) (s : State) :
    (regSet en s).ledtrace = s.ledtrace ++ [frameOf (frameBits (writePalette en s))] := by
  rw [regSet_frame]

theorem regSet_sends (en : Bool) (s : State) : sendsAtMostItsBuffer s (regSet en s) :=
  .inr ⟨_, regSet_ledtrace en s, regSet_led en s ▸ frameShows_frameBits _⟩

@[simp] theorem evTake_ledtrace (e : Event) (s : State) : (evTake e s).2.ledtrace = s.ledtrace := by rw [evTake_snd]

@[simp] theorem plSend_ledtrace (s : State) : (plSend s).ledtrace = s.ledtrace := by rw [plSend_frame]

theorem service_sends (e : Event) (s : State) : sendsAtMostItsBuffer s (service e s) := by
  have hregset (en : Bool) : sendsAtMostItsBuffer s (regSet en (evTake e s).2) := by
    rw [sendsAtMostItsBuffer, ← evTake_ledtrace e s]
    exact regSet_sends en _
  rcases service_rows e s with hr | ⟨-, ⟨-, -, hr⟩ | ⟨-, -, hr⟩ | ⟨-, -, hr⟩ | ⟨-, -, hr⟩⟩ <;> rw [hr]
  · exact .inl rfl
  · exact hregset true
  · exact .inl ((plSend_ledtrace _).trans (evTake_ledtrace e s))
  · exact hregset false
  · exact .inl (evTake_ledtrace e s)

theorem effect_sends (i : Instr) (s : State) : sendsAtMostItsBuffer s (effect i s) := by
  cases i with
  | evset e => exact .inl rfl
  | evtake e => exact .inl (evTake_ledtrace e s)
  | debpoll => exact .inl (by rw [debpoll_frame])
  | plsend => exact .inl (plSend_ledtrace s)
  | plpoll => exact .inl (show (plPoll s).ledtrace = s.ledtrace by rw [plPoll_frame])
  | ledset n c => exact .inl (show (ledSet n c s).ledtrace = s.ledtrace by rw [ledSet_frame])
  | ledshow => exact .inr ⟨_, congrArg State.ledtrace (ledShow_eq s), frameShows_frameBits s⟩
  | regset en => exact regSet_sends en s
  | svc e => exact service_sends e s
  | tick => exact .inl rfl
  | edge e => exact .inl (show (edge e s).ledtrace = s.ledtrace by rw [edge_frame])

/-- Settles O29: a step has at most one operation, and its other parts leave the buffer and the frames. -/
theorem stepSendsAtMostOneFrameOfItsBuffer : Obligations.StepSendsAtMostOneFrameOfItsBuffer := by
  intro s t h
  obtain ⟨u, ⟨levels, turns, rfl⟩, rfl | ⟨i, rfl⟩ | ⟨i, rfl⟩ | ⟨w, rfl⟩⟩ := step_forms h
  · exact .inl rfl
  · exact effect_sends i _
  · rw [advancePhase_frame]
    exact effect_sends i _
  · exact .inl (by rw [raise_eq])

end Machine
end Sys2Proof
end

-- ==== EDGE (spec/46_async_agents.md R192) ====
section
/-! PROOF. EDGE in its two cases, and the obligations about it. -/

namespace Sys2Proof

theorem encode_edge (e : Event) : encode (.edge e) = 0xB0000000#32 ||| (e.id.setWidth 32 <<< 26) :=
  wordS_eq_or 0xB#4 e.id

theorem Event.isCompanion_iff (e : Event) :
    e.isCompanion = true ↔ e = .companionPowerRequest ∨ e = .companionShutdownComplete := by cases e <;> decide

namespace Machine

theorem edge_of_companion {e : Event} (h : e.isCompanion = true) (s : State) : edge e s = evSet e s := if_pos h

theorem edge_of_button {e : Event} (h : e.isCompanion = false) (s : State) :
    edge e s = { s with fault := recorded (.illegalOperation (encode (.edge e))) s.fault } := by
  rw [edge, if_neg (by simp [h]), raise_eq_recorded]

/-- Settles O37: EDGE of a companion event is EVSET's set. -/
theorem edgeSetsItsCompanionFlag : Obligations.EdgeSetsItsCompanionFlag := by
  intro e s he
  have hedge : edge e s = evSet e s := edge_of_companion (e.isCompanion_iff.mpr he) s
  exact ⟨encode_edge e, evSet e s, hedge ▸ exec_eq_effect (.edge e) s, evSet_eq e s, evSet_readByte e s⟩

/-- Settles O38: the encoding of the ill-formed term matches no row, and the term raises with that word. -/
theorem edgeOfAButtonEventIsIllegal : Obligations.EdgeOfAButtonEventIsIllegal := by
  intro e s he
  have hbutton : e.isCompanion = false := by rcases he with rfl | rfl <;> rfl
  have hbit : (encode (.edge e)).getLsbD 27 = false := by rcases he with rfl | rfl <;> rfl
  obtain ⟨r, hd, -⟩ := decode_of_no_match (no_match_of_button_edge (opcField_wordS 0xB#4 e.id) hbit)
  refine ⟨⟨r, hd⟩, ?_⟩
  rw [← encode_edge, exec_eq_effect, ← edge_of_button hbutton]
  rfl

theorem tick_edge_comm (e : Event) (s : State) : edge e (tick s) = tick (edge e s) := by
  cases h : e.isCompanion with
  | true =>
    rw [edge_of_companion h, edge_of_companion h]
    rfl
  | false =>
    rw [edge_of_button h, edge_of_button h]
    rfl

/-- Settles O39: the two orders reach the state of `tick_edge_comm`. -/
theorem tickAndEdgeCommute : Obligations.TickAndEdgeCommute := fun e s =>
  ⟨tick s, edge e s, edge e (tick s), exec_eq_effect .tick s, exec_eq_effect (.edge e) s,
    exec_eq_effect (.edge e) (tick s), tick_edge_comm e s ▸ exec_eq_effect .tick (edge e s)⟩

end Machine
end Sys2Proof
end

-- ==== The block's invariants and power-on (spec/10_state.md, spec/70_reset_and_hazards.md) ====
section
/-! PROOF. Each operation keeps the invariants, so every step does; and what holds after power-on. -/

namespace Sys2Proof
namespace Machine

/-! ### What keeps the invariants -/

/-- The invariants do not speak of the flags, the counter, the faults, the frames or the model's own fields. -/
theorem State.Inv.of_frame {s t : State} (h : s.Inv)
    (ht : t = { s with
      evf := t.evf
      millis := t.millis
      fault := t.fault
      ledtrace := t.ledtrace
      inputs := t.inputs
      agenda := t.agenda
      evtrace := t.evtrace }) : t.Inv := by
  obtain ⟨hphase, hpulse, hrails, hrest, hlow, hmem⟩ := h
  rw [ht]
  exact ⟨hphase, hpulse, hrails, hrest, hlow, hmem⟩

theorem evTake_keeps_inv (e : Event) {s : State} (h : s.Inv) : (evTake e s).2.Inv := h.of_frame (by rw [evTake_snd])

theorem raise_keeps_inv (r : FaultRecord) {s : State} (h : s.Inv) : (raise r s).Inv := h.of_frame (by rw [raise_eq])

theorem edge_keeps_inv (e : Event) {s : State} (h : s.Inv) : (edge e s).Inv := h.of_frame (by rw [edge_frame])

theorem debpoll_keeps_inv {s : State} (h : s.Inv) : (effect .debpoll s).Inv := by
  obtain ⟨hphase, hpulse, hrails, hrest, hlow, hmem⟩ := h
  rw [debpoll_frame]
  exact ⟨hphase, hpulse, hrails, debounce_releasedRests s.deb s.inputs.powerButton s.millis hrest, hlow, hmem⟩

theorem plSend_keeps_inv {s : State} (h : s.Inv) : (plSend s).Inv := by
  cases hactive : s.pls.active with
  | true =>
    rw [plSend_active hactive]
    exact raise_keeps_inv _ h
  | false =>
    obtain ⟨hphase, -, hrails, hrest, hlow, hmem⟩ := h
    rw [plSend_inactive hactive]
    exact ⟨hphase, rfl, hrails, hrest, hlow, hmem⟩

theorem plPoll_keeps_inv {s : State} (h : s.Inv) : (plPoll s).Inv := by
  cases hdone : pulseDone s.pls s.millis with
  | true =>
    obtain ⟨hphase, -, hrails, hrest, hlow, hmem⟩ := h
    rw [plPoll_done hdone]
    exact ⟨hphase, rfl, hrails, hrest, hlow, hmem⟩
  | false => rwa [plPoll_not_done hdone]

theorem ledSet_keeps_inv (i : LedIndex) (c : LedColor) {s : State} (h : s.Inv) : (ledSet i c s).Inv := by
  by_cases hi : i.toNat < Config.ledCount
  · obtain ⟨hphase, hpulse, hrails, hrest, hlow, hmem⟩ := h
    rw [ledSet_inRange hi]
    exact ⟨hphase, hpulse, hrails, hrest, hlow, Memory.writeEntry_wf c hmem hi⟩
  · rw [ledSet_outOfRange hi]
    exact raise_keeps_inv _ h

theorem ledShow_keeps_inv {s : State} (h : s.Inv) : (ledShow s).Inv := by
  obtain ⟨hphase, hpulse, hrails, hrest, -, hmem⟩ := h
  rw [ledShow_eq]
  exact ⟨hphase, hpulse, hrails, hrest, rfl, hmem⟩

theorem regSet_keeps_inv (en : Bool) {s : State} (h : s.Inv) : (regSet en s).Inv := by
  obtain ⟨hphase, hpulse, -, hrest, -, hmem⟩ := h
  rw [regSet_eq]
  exact ⟨hphase, hpulse, ⟨rfl, rfl⟩, hrest, rfl, writePalette_wf en hmem⟩

theorem applyAction_keeps_inv (a : PolicyAction) {s : State} (h : s.Inv) : (applyAction a s).Inv := by
  cases a with
  | railsOn => exact regSet_keeps_inv true h
  | railsOff => exact regSet_keeps_inv false h
  | sendPulse => exact plSend_keeps_inv h
  | discard => exact h

theorem service_keeps_inv (e : Event) {s : State} (h : s.Inv) : (service e s).Inv := by
  rcases service_cases e s with ⟨-, hs⟩ | ⟨-, hs⟩ <;> rw [hs]
  · exact evTake_keeps_inv e h
  · exact applyAction_keeps_inv _ (evTake_keeps_inv e h)

theorem effect_keeps_inv (i : Instr) {s : State} (h : s.Inv) : (effect i s).Inv := by
  cases i with
  | evset e => exact h.of_frame rfl
  | evtake e => exact evTake_keeps_inv e h
  | debpoll => exact debpoll_keeps_inv h
  | plsend => exact plSend_keeps_inv h
  | plpoll => exact plPoll_keeps_inv h
  | ledset n c => exact ledSet_keeps_inv n c h
  | ledshow => exact ledShow_keeps_inv h
  | regset en => exact regSet_keeps_inv en h
  | svc e => exact service_keeps_inv e h
  | tick => exact h.of_frame rfl
  | edge e => exact edge_keeps_inv e h

theorem advancePhase_keeps_inv {s : State} (h : s.Inv) : (advancePhase s).Inv := by
  unfold advancePhase
  split
  · obtain ⟨-, hpulse, hrails, hrest, hlow, hmem⟩ := h
    exact ⟨nextPhase_lt s.phase, hpulse, hrails, hrest, hlow, hmem⟩
  · exact h

/-- Settles O53: a taken turn, every operation, the advance and a raised fault keep the invariants. -/
theorem stepKeepsTheInvariants : Obligations.StepKeepsTheInvariants := by
  intro s t hs hstep
  refine step_keeps (P := State.Inv) (fun s u hu h => ?_) (fun i s => effect_keeps_inv i)
    (fun s => advancePhase_keeps_inv) (fun r s => raise_keeps_inv r) hs hstep
  obtain ⟨_, _, rfl⟩ := hu
  exact h.of_frame rfl

/-! ### Power-on -/

/-- Settles O54: the two power-on states differ in the agenda alone, which no invariant reads. -/
theorem invariantsHoldAtPowerOn : Obligations.InvariantsHoldAtPowerOn := by
  have hreset : State.reset.Inv :=
    ⟨show (0#3).toNat < 6 by decide, rfl, ⟨rfl, rfl⟩, fun _ => rfl, rfl, reset_memory_wf⟩
  intro b
  cases b with
  | none => exact hreset
  | off => exact hreset.of_frame rfl

/-- Settles O55: the fields of `State.reset`; the empty memory reads as 0x00 everywhere. -/
theorem resetLeavesTheDecidedValues : Obligations.ResetLeavesTheDecidedValues :=
  ⟨rfl, rfl, rfl, rfl, rfl, rfl, by decide, rfl, rfl, rfl⟩

end Machine
end Sys2Proof
end

-- ==== Whose turn a step is (spec/45_controlloop.md R178, spec/60_exceptions.md R204) ====
section
/-! PROOF. The step of each kind of turn, before and after a fault, and the obligations about them. -/

namespace Sys2Proof
namespace Machine

/-- The first turn of the agenda is taken, and used up. -/
theorem step_of_agenda {s : State} {turn : Turn} {rest : List Turn} (h : s.agenda = turn :: rest) :
    step s = runTurn turn { s with agenda := rest } := by
  simp [step, nextTurn, popTurn, h, State.setAgenda]

/-! ### Directly issued words (30_encoding.md R73) -/

theorem issueStep_of_ok {w : Word} {i : Instr} {u : State} (hd : decode w = .ok i)
    (hrun : u.fault = [] ∨ inInterruptContext i = true) : issueStep w u = exec i u := by
  have hcond : (u.unfaulted || isInterruptWord w) = true := by
    rw [Bool.or_eq_true, State.unfaulted_iff, isInterruptWord, hd]
    exact hrun
  rw [issueStep, if_pos hcond, runWord, hd]

/-- Settles O45: TICK and EDGE are the operations of the interrupt context. -/
theorem stepRunsTheIssuedWord : Obligations.StepRunsTheIssuedWord := by
  intro s w rest i hagenda hd hrun
  rw [step_of_agenda hagenda]
  refine issueStep_of_ok hd ?_
  rcases hrun with hf | rfl | ⟨e, rfl⟩
  · exact .inl hf
  · exact .inr rfl
  · exact .inr rfl

/-- Settles O46: a placed word is an issued one, and its turn used up leaves the state it was placed in. -/
theorem placedWordIsRunNext : Obligations.PlacedWordIsRunNext := by
  intro s w i hw hd hf
  rw [← Nat.mod_eq_of_lt hw] at hd
  exact stepRunsTheIssuedWord (s.withFetchWord 32 w) _ s.agenda i rfl hd (.inl hf)

/-- Settles O47: the word is refused with its own record, the first. -/
theorem stepOfAnIllegalWordRaises : Obligations.StepOfAnIllegalWordRaises := by
  intro s w rest hagenda hf hnone
  have hu : ({ s with agenda := rest } : State).unfaulted = true := (State.unfaulted_iff _).mpr hf
  rw [step_of_agenda hagenda, runTurn, issueStep, hu, Bool.true_or, if_pos rfl, runWord_of_no_match hnone]
  simp [recorded, hf]

/-- Settles O56: REGSET 0 is the first turn after power-on with `off`. -/
theorem bootParameterSendsTheOffPalette : Obligations.BootParameterSendsTheOffPalette := by
  have hstep : step (State.powerOn .off) = .next (regSet false State.reset) :=
    (stepRunsTheIssuedWord _ _ [] (.regset false) rfl (decode_encode rfl) (.inl rfl)).trans (exec_eq_effect _ _)
  have hframe := regSet_frame false State.reset
  exact ⟨rfl, _, _, hstep, railsSwitched_regSet false State.reset, by rw [hframe]; rfl, by rw [hframe]; rfl⟩

/-! ### The main agent (R170, R178) -/

theorem step_of_main {s : State} (h : nextTurn s = .main) : step s = mainStep (popTurn s) := by rw [step, h, runTurn]

theorem nextTurn_main {s : State} (h : s.agenda = [] ∨ ∃ rest, s.agenda = .main :: rest) : nextTurn s = .main := by
  rcases h with h | ⟨rest, h⟩ <;> rw [nextTurn, h]

/-- The operations of the loop program, in order (R170). -/
def loopOperations : List Instr :=
  [.debpoll, .plpoll, .svc .buttonPress, .svc .buttonHold, .svc .companionPowerRequest,
    .svc .companionShutdownComplete]

theorem decode_program (p : BitVec 3) : (programWord p).map decode = loopOperations[p.toNat]?.map .ok := by
  revert p
  decide

theorem mainStep_of_operation {u : State} {i : Instr} (hf : u.fault = [])
    (hi : loopOperations[u.phase.toNat]? = some i) : mainStep u = .next (advancePhase (effect i u)) := by
  have hdecode := decode_program u.phase
  rw [hi, Option.map_some, Option.map_eq_some_iff] at hdecode
  obtain ⟨w, hw, hd⟩ := hdecode
  have hrun : runWord w u = .next (effect i u) := by rw [runWord, hd, ← exec_eq_effect]
  simp only [mainStep, if_pos ((State.unfaulted_iff u).mpr hf), hw, hrun]

theorem advancePhase_of_unfaulted {s : State} (h : s.fault = []) :
    advancePhase s = { s with phase := BitVec.ofNat 3 ((s.phase.toNat + 1) % 6) } :=
  if_pos ((State.unfaulted_iff s).mpr h)

theorem advancePhase_of_faulted {s : State} (h : s.fault ≠ []) : advancePhase s = s :=
  if_neg (mt (State.unfaulted_iff s).mp h)

/-- Settles O48: the main agent's step is the program's operation and its advance. -/
theorem mainTurnRunsTheProgramAtPhase : Obligations.MainTurnRunsTheProgramAtPhase := by
  intro s i hagenda hf hi
  have hstep : step s = .next (advancePhase (effect i (popTurn s))) :=
    (step_of_main (nextTurn_main hagenda)).trans (mainStep_of_operation hf hi)
  have hphase : (effect i (popTurn s)).phase = s.phase := effect_phase i (popTurn s)
  refine ⟨effect i (popTurn s), exec_eq_effect i _, fun ht => ?_, fun ht => ⟨?_, hphase⟩⟩
  · rw [hstep, advancePhase_of_unfaulted ht, hphase]
  · rw [hstep, advancePhase_of_faulted ht]

/-- Settles O49: the program has an operation at each phase below 6. -/
theorem unfaultedMainAgentHasAStep : Obligations.UnfaultedMainAgentHasAStep := by
  intro s hphase hf hmain
  have hi : loopOperations[s.phase.toNat]? = some loopOperations[s.phase.toNat] := List.getElem?_eq_getElem hphase
  exact ⟨_, (step_of_main hmain).trans (mainStep_of_operation hf hi)⟩

/-- Settles O52: no operation writes `phase`, and the advance comes in the main agent's step alone. -/
theorem onlyTheMainTurnMovesPhase : Obligations.OnlyTheMainTurnMovesPhase := by
  intro s t h hmoved
  have hnext : ∀ p : BitVec 3, (nextPhase p).toNat = (p.toNat + 1) % 6 := by decide
  rcases step_cases h with ⟨_, i, hmain, -, -, -, rfl⟩ | ⟨-, rfl⟩ | ⟨_, _, -, rfl | ⟨e, -, -, -, rfl⟩⟩ |
    ⟨_, i, -, -, -, rfl⟩ | ⟨_, r, -, -, -, rfl⟩
  · have hphase : (effect i (popTurn s)).phase = s.phase := effect_phase i (popTurn s)
    by_cases hf : (effect i (popTurn s)).fault = []
    · rw [advancePhase_of_unfaulted hf, hphase]
      exact ⟨hmain, hnext s.phase, hf⟩
    · rw [advancePhase_of_faulted hf] at hmoved
      exact absurd hphase hmoved
  · exact absurd rfl hmoved
  · exact absurd rfl hmoved
  · exact absurd (effect_phase (.edge e) _) hmoved
  · exact absurd (effect_phase i _) hmoved
  · exact absurd (by rw [raise_eq]; rfl) hmoved

/-! ### The timer and the environment (46_async_agents.md R190, R192) -/

/-- Settles O50: the timer agent's word is TICK's. -/
theorem timerTurnIsATick : Obligations.TimerTurnIsATick := by
  intro s rest hagenda
  rw [step_of_agenda hagenda]
  rfl

theorem driveStep_of_not_rising {line : InputLine} {level : Level} {u : State}
    (h : line = .powerButton ∨ level = false ∨ u.inputs.level line = true) :
    driveStep line level u = .next (u.setInputs (u.inputs.set line level)) := by
  rcases h with rfl | rfl | h
  · rfl
  · cases line <;> simp [driveStep, InputLine.edgeEvent]
  · cases line <;> simp [driveStep, InputLine.edgeEvent, h]

theorem driveStep_of_rising {line : InputLine} {e : Event} {u : State} (he : line.edgeEvent = some e)
    (h : u.inputs.level line = false) :
    driveStep line true u = exec (.edge e) (u.setInputs (u.inputs.set line true)) := by
  have hcompanion : (Instr.edge e).wellFormed = true := by cases line <;> cases he <;> rfl
  simp only [driveStep, he, h, Bool.not_false, Bool.and_self, if_true, runWord, decode_encode hcompanion]

/-- Settles O51: a drive either rises on a companion line or does not. -/
theorem drivenLineRaisesEdgeOnlyWhenRising : Obligations.DrivenLineRaisesEdgeOnlyWhenRising := by
  intro s line level rest hagenda t
  rw [step_of_agenda hagenda]
  refine ⟨fun h => driveStep_of_not_rising h, ?_, ?_⟩
  · rintro rfl hlow rfl
    exact driveStep_of_rising (u := { s with agenda := rest }) rfl hlow
  · rintro rfl hlow rfl
    exact driveStep_of_rising (u := { s with agenda := rest }) rfl hlow

/-! ### After a fault (60_exceptions.md R200, R204) -/

theorem mem_recorded {r : FaultRecord} (r' : FaultRecord) {l : List FaultRecord} (h : r ∈ l) : r ∈ recorded r' l := by
  unfold recorded
  split
  · exact h
  · exact List.mem_append_left _ h

/-- An operation leaves the faults, or records one. -/
theorem effect_fault_cases (i : Instr) (s : State) :
    (effect i s).fault = s.fault ∨ ∃ r, (effect i s).fault = recorded r s.fault := by
  by_cases h : (effect i s).fault = s.fault
  · exact .inl h
  right
  rcases operationsFaultOnlyForTheNamedCauses i s _ (exec_eq_effect i s) h with ⟨c, rfl⟩ | ⟨rfl, hactive⟩ |
    ⟨e, rfl, he, hset, hreg, hactive⟩ | ⟨e, rfl, he⟩
  · exact ⟨_, congrArg State.fault ((ledSet_outOfRange (by decide) c s).trans (raise_eq_recorded _ _))⟩
  · exact ⟨_, congrArg State.fault (plSend_overlap hactive)⟩
  · rw [← evTake_pls e s] at hactive
    rw [← evTake_fault e s]
    exact ⟨_, congrArg State.fault ((service_request_on hset he hreg).trans (plSend_overlap hactive))⟩
  · have hbutton : e.isCompanion = false := by rcases he with rfl | rfl <;> rfl
    exact ⟨_, congrArg State.fault (edge_of_button hbutton s)⟩

theorem effect_keeps_faults {r : FaultRecord} (i : Instr) {s : State} (h : r ∈ s.fault) : r ∈ (effect i s).fault := by
  rcases effect_fault_cases i s with hf | ⟨r', hf⟩ <;> rw [hf]
  · exact h
  · exact mem_recorded r' h

/-- Settles O42: no part of a step removes a record. -/
theorem recordedFaultsStay : Obligations.RecordedFaultsStay := by
  intro s t hstep r hr
  refine step_keeps (P := fun s => r ∈ s.fault) (fun s u hu h => ?_) (fun i s => effect_keeps_faults i) (fun s h => ?_)
    (fun r' s h => ?_) hr hstep
  · obtain ⟨_, _, rfl⟩ := hu
    exact h
  · rwa [advancePhase_frame]
  · rw [raise_eq_recorded]
    exact mem_recorded r' h

/-- `t` is `s` but for the counter, the flags and the model's own fields, and no flag was cleared. -/
def onlyClockAndFlagsMoved (s t : State) : Prop :=
  t = { s with
    millis := t.millis
    evf := t.evf
    inputs := t.inputs
    agenda := t.agenda
    evtrace := t.evtrace } ∧
  ∀ e, s.flag e = true → t.flag e = true

theorem evSet_moves_flags {s u : State} (hu : turnTaken s u) (e : Event) : onlyClockAndFlagsMoved s (evSet e u) := by
  obtain ⟨_, _, rfl⟩ := hu
  refine ⟨rfl, fun e' h => ?_⟩
  rw [evSet_flag, Bool.or_eq_true]
  exact .inl h

theorem tick_moves_clock {s u : State} (hu : turnTaken s u) : onlyClockAndFlagsMoved s (tick u) := by
  obtain ⟨_, _, rfl⟩ := hu
  exact ⟨rfl, fun _ h => h⟩

/-- An operation of the interrupt context is TICK or EDGE; the decoder gives EDGE a companion event alone. -/
theorem interrupt_operation {w : Word} {i : Instr} (hd : decode w = .ok i) (hi : inInterruptContext i = true) :
    i = .tick ∨ ∃ e, i = .edge e ∧ e.isCompanion = true := by
  have hwf : i.wellFormed = true := (encodeOfDecodeIsTheWord w i hd).2
  cases i with
  | tick => exact .inl rfl
  | edge e => exact .inr ⟨e, rfl, hwf⟩
  | _ => cases hi

/-- Settles O43: after a fault a step is a TICK, an EDGE of a companion event, or a change of a line. -/
theorem faultedStepMovesOnlyClockAndFlags : Obligations.FaultedStepMovesOnlyClockAndFlags := by
  intro s t hf h
  show onlyClockAndFlagsMoved s t
  rcases step_cases h with ⟨_, _, -, hunfaulted, -⟩ | ⟨-, rfl⟩ | ⟨line, _, -, rfl | ⟨e, he, -, -, rfl⟩⟩ |
    ⟨_, i, -, hd, hrun, rfl⟩ | ⟨_, _, -, -, hunfaulted, -⟩
  · exact absurd hunfaulted hf
  · exact tick_moves_clock (turnTaken_popTurn s)
  · exact ⟨rfl, fun _ h => h⟩
  · have hcompanion : e.isCompanion = true := by cases line <;> cases he <;> rfl
    rw [effect, edge_of_companion hcompanion]
    exact evSet_moves_flags (turnTaken_setInputs s _) e
  · rcases interrupt_operation hd (hrun.resolve_left hf) with rfl | ⟨e, rfl, hcompanion⟩
    · exact tick_moves_clock (turnTaken_popTurn s)
    · rw [effect, edge_of_companion hcompanion]
      exact evSet_moves_flags (turnTaken_popTurn s) e
  · exact absurd hunfaulted hf

theorem not_isInterruptWord {w : Word} (h : ∀ i, decode w = .ok i → i ≠ .tick ∧ ∀ e, i ≠ .edge e) :
    isInterruptWord w = false := by
  rw [isInterruptWord]
  cases hd : decode w with
  | error r => rfl
  | ok i =>
    obtain ⟨htick, hedge⟩ := h i hd
    cases i with
    | tick => exact absurd rfl htick
    | edge e => exact absurd rfl (hedge e)
    | _ => rfl

/-- Settles O44: the checks of the main agent's step and of the issued word's. -/
theorem faultedMainAgentHasNoStep : Obligations.FaultedMainAgentHasNoStep := by
  intro s hf
  have hu : (popTurn s).unfaulted = false := Bool.eq_false_iff.mpr (mt (State.unfaulted_iff (popTurn s)).mp hf)
  refine ⟨fun hmain => ?_, fun w hissue hw => ?_⟩
  · rw [step_of_main hmain, mainStep, hu]
    rfl
  · rw [step, hissue, runTurn, issueStep, hu, not_isInterruptWord hw]
    rfl

end Machine
end Sys2Proof
end

-- ==== Several SVC in order (spec/45_controlloop.md R174, R175) ====
section
/-! PROOF. An SVC on the state another left, and the drain: on what the table of R175 speaks of, an SVC is a function,
and a drain is that function applied four times. -/

namespace Sys2Proof
namespace Machine

/-! ### What the sub-operations leave of flags, pulse, clock and faults -/

@[simp] theorem evTake_millis (e : Event) (s : State) : (evTake e s).2.millis = s.millis := by rw [evTake_snd]

@[simp] theorem evTake_evf (e : Event) (s : State) : (evTake e s).2.evf = s.evf &&& ~~~ eventMask e := by
  rw [evTake_snd]

@[simp] theorem regSet_evf (en : Bool) (s : State) : (regSet en s).evf = s.evf := by rw [regSet_frame]
@[simp] theorem regSet_pls (en : Bool) (s : State) : (regSet en s).pls = s.pls := by rw [regSet_frame]
@[simp] theorem regSet_millis (en : Bool) (s : State) : (regSet en s).millis = s.millis := by rw [regSet_frame]

/-- The frame of a palette: what REGSET sends, whatever the buffer held. -/
def paletteFrame (en : Bool) : Frame :=
  frameOf (colorBits (powerColor en) ++ (colorBits (discColor en) ++ colorBits (discColor en)))

@[simp] theorem regSet_ledtrace_palette (en : Bool) (s : State) :
    (regSet en s).ledtrace = s.ledtrace ++ [paletteFrame en] := by
  rw [regSet_ledtrace, frameBits_eq, writePalette_led0, writePalette_led1, writePalette_led2]
  rfl

@[simp] theorem regSet_flag (en : Bool) (s : State) (e : Event) : (regSet en s).flag e = s.flag e :=
  congrArg (fun f => f.getLsbD e.id.toNat) (regSet_evf en s)

@[simp] theorem plSend_evf (s : State) : (plSend s).evf = s.evf := by rw [plSend_frame]
@[simp] theorem plSend_millis (s : State) : (plSend s).millis = s.millis := by rw [plSend_frame]

@[simp] theorem plSend_flag (s : State) (e : Event) : (plSend s).flag e = s.flag e :=
  congrArg (fun f => f.getLsbD e.id.toNat) (plSend_evf s)

theorem plSend_pls_of_inactive {s : State} (h : s.pls.active = false) : (plSend s).pls = ⟨true, s.millis⟩ := by
  rw [plSend_inactive h]

@[simp] theorem service_evf (e : Event) (s : State) : (service e s).evf = (evTake e s).2.evf := by rw [service_frame]

@[simp] theorem service_millis (e : Event) (s : State) : (service e s).millis = s.millis := by rw [service_frame]

/-- SVC leaves the flags of the other events. -/
theorem service_flag_other {e e' : Event} (s : State) (h : e' ≠ e) : (service e s).flag e' = s.flag e' := by
  rw [State.flag, service_evf]
  exact evTake_flag_other s h

theorem mem_recorded_self (r : FaultRecord) (l : List FaultRecord) : r ∈ recorded r l := by
  unfold recorded
  split
  · assumption
  · exact List.mem_append_right _ (List.mem_singleton_self r)

/-! ### Two SVC in order (R174) -/

theorem exec_svc_eq {e : Event} {s t : State} (h : service e s = t) : exec (.svc e) s = .next t :=
  h ▸ exec_eq_effect (.svc e) s

/-- The second SVC is the policy's action on the `reg` the first one left. -/
theorem service_after_service {e e' : Event} {s t : State} (hne : e ≠ e') (ht : t = service e s)
    (hset : s.flag e' = true) :
    t.flag e' = true ∧
    (e' = .buttonPress ∨ e' = .companionPowerRequest → t.reg = false →
      exec (.svc e') t = exec (.regset true) (evTake e' t).2) ∧
    (e' = .buttonPress ∨ e' = .companionPowerRequest → t.reg = true →
      exec (.svc e') t = exec .plsend (evTake e' t).2) ∧
    (e' = .buttonHold ∨ e' = .companionShutdownComplete → t.reg = true →
      exec (.svc e') t = exec (.regset false) (evTake e' t).2) ∧
    (e' = .buttonHold ∨ e' = .companionShutdownComplete → t.reg = false →
      exec (.svc e') t = .next (evTake e' t).2) := by
  have hflag : t.flag e' = true := by rw [ht, service_flag_other s hne.symm, hset]
  exact ⟨hflag, fun he hreg => exec_svc_eq (service_request_off hflag he hreg),
    fun he hreg => exec_svc_eq (service_request_on hflag he hreg),
    fun he hreg => exec_svc_eq (service_shutdown_on hflag he hreg),
    fun he hreg => exec_svc_eq (service_shutdown_off hflag he hreg)⟩

/-- Settles O34: the general clause, and for each row of two events the states the two SVC leave. -/
theorem laterSvcReadsTheRegOfTheEarlier : Obligations.LaterSvcReadsTheRegOfTheEarlier := by
  refine ⟨fun e e' s t hne ht hset => service_after_service hne ((exec_next_iff _ s t).mp ht) hset,
    fun s hdone hreg => ⟨fun hhold => ?_, fun hrequest hpulse => ?_⟩,
    fun s hrequest => ⟨fun hhold hreg => ?_, fun hpress hreg hpulse => ?_, fun hpress hreg hpulse => ?_⟩⟩
  · refine ⟨_, _, paletteFrame false, exec_svc_eq (service_shutdown_on hhold (.inl rfl) hreg), regSet_reg false _,
      exec_svc_eq (service_shutdown_off (by simp [hdone]) (.inr rfl) (regSet_reg false _)), ?_⟩
    simp
  · refine ⟨_, _, paletteFrame false, exec_svc_eq (service_request_on hrequest (.inr rfl) hreg), by simp [hreg],
      by simp [plSend_pls_of_inactive, hpulse],
      exec_svc_eq (service_shutdown_on (by simp [hdone]) (.inr rfl) (by simp [hreg])), ?_⟩
    simp
  · refine ⟨_, _, paletteFrame false, paletteFrame true, exec_svc_eq (service_shutdown_on hhold (.inl rfl) hreg),
      regSet_reg false _,
      exec_svc_eq (service_request_off (by simp [hrequest]) (.inr rfl) (regSet_reg false _)), ?_⟩
    simp
  · refine ⟨_, _, exec_svc_eq (service_request_off hpress (.inl rfl) hreg), regSet_reg true _,
      exec_svc_eq (service_request_on (by simp [hrequest]) (.inr rfl) (regSet_reg true _)), ?_⟩
    simp [plSend_inactive, hpulse]
  · have hactive : (plSend (evTake .buttonPress s).2).pls = ⟨true, s.millis⟩ := by
      simpa using plSend_pls_of_inactive (s := (evTake .buttonPress s).2) (by simp [hpulse])
    refine ⟨_, _, exec_svc_eq (service_request_on hpress (.inl rfl) hreg), hactive,
      exec_svc_eq (service_request_on (by simp [hrequest]) (.inr rfl) (by simp [hreg])), ?_⟩
    simp [plSend_overlap, hactive, mem_recorded_self]

/-! ### The drain (R175) -/

/-- What the table of R175 speaks of: the flags, `reg`, the pulse, the faults and the frames sent. -/
structure PowerView where
  evf : FlagSet
  reg : Bool
  pls : Pulse
  fault : List FaultRecord
  frames : List Frame

def State.powerView (s : State) : PowerView := ⟨s.evf, s.reg, s.pls, s.fault, s.ledtrace⟩

/-- An action of the policy on the view, at a time. -/
def PowerView.act (a : PolicyAction) (now : Stamp) (v : PowerView) : PowerView :=
  match a with
  | .railsOn => { v with reg := true, frames := v.frames ++ [paletteFrame true] }
  | .railsOff => { v with reg := false, frames := v.frames ++ [paletteFrame false] }
  | .sendPulse =>
    if v.pls.active then { v with fault := recorded (.pulseOverlap now) v.fault } else { v with pls := ⟨true, now⟩ }
  | .discard => v

/-- SVC on the view. -/
def PowerView.service (e : Event) (now : Stamp) (v : PowerView) : PowerView :=
  if v.evf.getLsbD e.id.toNat then PowerView.act (policy e v.reg) now { v with evf := v.evf &&& ~~~ eventMask e } else v

/-- Some SVC on the view, until one raises a fault. -/
def PowerView.serviceInOrder (now : Stamp) : List Event → PowerView → PowerView
  | [], v => v
  | e :: rest, v =>
    if (v.service e now).fault = [] then PowerView.serviceInOrder now rest (v.service e now) else v.service e now

theorem powerView_applyAction (a : PolicyAction) (s : State) :
    (applyAction a s).powerView = s.powerView.act a s.millis := by
  cases a with
  | railsOn | railsOff => simp [applyAction, State.powerView, PowerView.act]
  | sendPulse =>
    cases h : s.pls.active with
    | true => simp [applyAction, State.powerView, PowerView.act, plSend_overlap, h]
    | false => simp [applyAction, State.powerView, PowerView.act, plSend_inactive, h]
  | discard => rfl

theorem powerView_service (e : Event) (s : State) : (service e s).powerView = s.powerView.service e s.millis := by
  cases hset : s.flag e with
  | false =>
    rw [service_of_clear hset]
    exact (if_neg (Bool.eq_false_iff.mp hset)).symm
  | true =>
    rw [service_of_set hset, powerView_applyAction]
    refine Eq.trans ?_ (if_pos hset).symm
    simp [State.powerView]

theorem powerView_serviceInOrder (events : List Event) (s : State) :
    ∃ t, serviceInOrder events s = .next t ∧ t.powerView = s.powerView.serviceInOrder s.millis events := by
  induction events generalizing s with
  | nil => exact ⟨s, rfl, rfl⟩
  | cons e rest ih =>
    have hview := powerView_service e s
    have hfault : (s.powerView.service e s.millis).fault = (service e s).fault := congrArg PowerView.fault hview.symm
    rw [serviceInOrder, exec_svc_eq rfl, PowerView.serviceInOrder, hfault, ← hview]
    by_cases hf : (service e s).fault = []
    · obtain ⟨t, ht, hv⟩ := ih (service e s)
      rw [service_millis] at hv
      simp only [if_pos hf]
      exact ⟨t, ht, hv⟩
    · simp only [if_neg hf]
      exact ⟨_, rfl, rfl⟩

/-- The drain on the view, at a time. -/
def PowerView.drain (now : Stamp) (v : PowerView) : PowerView :=
  v.serviceInOrder now [.buttonPress, .buttonHold, .companionPowerRequest, .companionShutdownComplete]

theorem powerView_drain (s : State) : ∃ t, drain s = .next t ∧ t.powerView = s.powerView.drain s.millis :=
  powerView_serviceInOrder [.buttonPress, .buttonHold, .companionPowerRequest, .companionShutdownComplete] s

/-- A row of the table without a fault: the drain of the view has all flags taken, and `reg`, the pulse and the frames
as the row has them. -/
theorem drain_row {s : State} {regAfter : Bool} {pls : Pulse} {sent : List Frame}
    (hview : s.powerView.drain s.millis = ⟨0#4, regAfter, pls, [], s.ledtrace ++ sent⟩) :
    ∃ t, drain s = .next t ∧ drainedTo s t regAfter sent.length pls := by
  obtain ⟨t, ht, hv⟩ := powerView_drain s
  obtain ⟨hevf, hreg, hpls, hfault, hframes⟩ := PowerView.mk.inj (hv.trans hview)
  exact ⟨t, ht, hevf, hreg, by rw [hframes, List.length_append], hpls, hfault⟩

/-- The row that ends in an overlap: the fault ends the drain, and no frame is sent. -/
theorem drain_overlap_row {s : State} {regAfter : Bool} {pls : Pulse} {record : FaultRecord}
    (hview : s.powerView.drain s.millis = ⟨0#4, regAfter, pls, [record], s.ledtrace⟩) :
    ∃ t, drain s = .next t ∧ t.fault = [record] ∧ t.evf = 0#4 ∧ t.reg = regAfter ∧ t.pls = pls ∧
      t.ledtrace = s.ledtrace := by
  obtain ⟨t, ht, hv⟩ := powerView_drain s
  obtain ⟨hevf, hreg, hpls, hfault, hframes⟩ := PowerView.mk.inj (hv.trans hview)
  exact ⟨t, ht, hfault, hevf, hreg, hpls, hframes⟩

/-- Settles O35: each row is the drain of its view, evaluated; the frames of a row are those of its palettes. -/
theorem drainFollowsTheTableOfSeveralFlags : Obligations.DrainFollowsTheTableOfSeveralFlags := by
  intro s hf hpulse
  obtain ⟨start, hpls⟩ : ∃ start, s.pls = ⟨false, start⟩ := ⟨s.pls.start, by rw [← hpulse]⟩
  refine ⟨fun hreg hflags => drain_row (sent := [paletteFrame false]) ?_,
    fun hreg hflags => drain_row (sent := [paletteFrame false, paletteFrame true]) ?_,
    fun hreg hflags => drain_overlap_row ?_,
    fun hreg hflags => drain_row (sent := [paletteFrame false]) ?_,
    fun hreg hflags => drain_row (sent := [paletteFrame false]) ?_,
    fun hreg hflags => drain_row (sent := [paletteFrame true]) ?_,
    fun hreg hflags => drain_row (sent := [paletteFrame true, paletteFrame false]) ?_,
    fun hreg hflags => drain_row
      (sent := [paletteFrame true, paletteFrame false, paletteFrame true, paletteFrame false]) ?_,
    fun hreg hflags => drain_row (sent := []) ?_⟩
  all_goals
    simp [State.powerView, hf, hpls, hreg, hflags, PowerView.drain, PowerView.serviceInOrder, PowerView.service,
      PowerView.act, policy, eventMask, Event.id, recorded, Config.nEvents]

end Machine
end Sys2Proof
end
